-- ==== Sys2Proof/Word.lean ====
section
/-! DEFINITION. The byte, the part's integer arithmetic (R1), and tables of a fixed length. -/

namespace Sys2Proof

/-- One byte on the serial link. -/
abbrev Byte := BitVec 8

/-- R1, clamp: the nearer bound when the value lies outside the range, else the value. -/
def clampTo (lo hi v : Int) : Int := if v < lo then lo else if hi < v then hi else v

/-- R1, floor of the exact quotient, toward minus infinity. -/
def floorQuot (num den : Int) : Int := Int.fdiv num den

/-- R1, rounded half up: floor((2x + 1) / 2) of the exact quotient x = num / den. -/
def roundHalfUp (num den : Int) : Int := Int.fdiv (2 * num + den) (2 * den)

/-- R1, truncate: the fraction of the quotient is discarded toward zero. -/
def truncQuot (num den : Int) : Int := Int.tdiv num den

def int32Min : Int := -2147483648
def int32Max : Int := 2147483647

/-- The clamp to the signed 32-bit range (R3, R33, R36). -/
def clamp32 (v : Int) : Int := clampTo int32Min int32Max v

/-- Does a signed 32-bit value hold v? -/
def fits32 (v : Int) : Bool := decide (int32Min ≤ v) && decide (v ≤ int32Max)

/-- Does a signed 64-bit value hold v? -/
def fits64 (v : Int) : Bool :=
  decide (-9223372036854775808 ≤ v) && decide (v ≤ 9223372036854775807)

/-- The table of length n whose entry i is f i. -/
def tab {α : Type} {n : Nat} (f : Fin n → α) : Vector α n := ⟨⟨List.ofFn f⟩, by simp⟩

/-- The table with entry i replaced. -/
def upd {α : Type} {n : Nat} (v : Vector α n) (i : Fin n) (x : α) : Vector α n :=
  tab fun j => if j = i then x else v[j]

@[simp] theorem tab_getElem {α : Type} {n : Nat} (f : Fin n → α) (j : Nat) (h : j < n) :
    (tab f)[j] = f ⟨j, h⟩ := by
  simp [tab]

theorem upd_getElem {α : Type} {n : Nat} (v : Vector α n) (i : Fin n) (x : α) (j : Nat)
    (h : j < n) : (upd v i x)[j] = if j = i.val then x else v[j] := by
  simp [upd, Fin.ext_iff]

@[simp] theorem upd_getElem_same {α : Type} {n : Nat} (v : Vector α n) (i : Fin n) (x : α) :
    (upd v i x)[i.val] = x := by
  simp [upd_getElem]

theorem upd_getElem_other {α : Type} {n : Nat} (v : Vector α n) (i : Fin n) (x : α) {j : Nat}
    (h : j < n) (hne : j ≠ i.val) : (upd v i x)[j] = v[j] := by
  simp [upd_getElem, hne]

end Sys2Proof
end

