-- ==== Sys2Proof/Syntax.lean ====
section
/-! DEFINITION. The commands of the block: one constructor for each row of spec/opcode_table.json. -/

namespace Sys2Proof

/-- A command: one step of the part, whole and indivisible (95_what_each_step_holds.md).
A request carries the tag and the payload bytes of its frame (R193, R198). -/
inductive Instr where
  /-- R206: power becomes good; the strap pins STRAP1, STRAP0 are sampled. -/
  | powerOn (straps : BitVec 2)
  /-- R205: RESETn becomes active. -/
  | resetLineActive
  /-- R206: RESETn is released; the strap pins are sampled. -/
  | resetLineRelease (straps : BitVec 2)
  /-- R3: the derived web position is published after the count has moved by `delta` further edges
  (net, forward positive; 0 when QUADRATURE_EDGE commands gave them all). -/
  | positionChange (delta : Int)
  | speedPeriodExpiry
  | warmUpDwellExpiry
  | nipFbActive
  | nipFbInactive
  | engageTimingExpiry
  | liftTimingExpiry
  | estopActive
  | estopReleased
  | guardOpens
  | guardCloses
  | scanCycleExpiry
  /-- R27: the conversion under way completes with a raw value. -/
  | conversionComplete (raw : BitVec 16)
  | silenceTimingExpiry (channel : Fin 16)
  | heaterWindowStart
  /-- R72: the on-time of zone `zone` + 1 in the window ends. -/
  | heaterOnTimeEnd (zone : Fin 6)
  /-- R79: the web-loss timing of loop `span` + 7 expires. -/
  | webLossExpiry (span : Fin 4)
  | watchPersistenceExpiry (watch : Fin 16)
  | linkSilenceExpiry
  | ticketCompletion
  /-- R209: the write ends; `agrees` is what the read-back finds. -/
  | storeWriteComplete (agrees : Bool)
  /-- R194, R196: bytes received, up to the one at which the frame is judged. -/
  | frameReceived (bytes : List Byte)
  | interbyteGapTimeout
  | transmitComplete
  | hello (tag : Byte) (payload : List Byte)
  | pointRead (tag : Byte) (payload : List Byte)
  | pointWrite (tag : Byte) (payload : List Byte)
  | lineCmdHeat (tag : Byte) (payload : List Byte)
  | lineCmdCool (tag : Byte) (payload : List Byte)
  | lineCmdRun (tag : Byte) (payload : List Byte)
  | lineCmdStop (tag : Byte) (payload : List Byte)
  | lineCmdThread (tag : Byte) (payload : List Byte)
  | lineCmdClear (tag : Byte) (payload : List Byte)
  | lot (tag : Byte) (payload : List Byte)
  | profileWrite (tag : Byte) (payload : List Byte)
  | profileRead (tag : Byte) (payload : List Byte)
  | profileErase (tag : Byte) (payload : List Byte)
  | ticketReq (tag : Byte) (payload : List Byte)
  | bandStart (tag : Byte) (payload : List Byte)
  | bandCancel (tag : Byte) (payload : List Byte)
  | bandVoid (tag : Byte) (payload : List Byte)
  | bandRead (tag : Byte) (payload : List Byte)
  | queueRead (tag : Byte) (payload : List Byte)
  | historyRead (tag : Byte) (payload : List Byte)
  | historyClear (tag : Byte) (payload : List Byte)
  | scanCmdContinuous (tag : Byte) (payload : List Byte)
  | scanCmdSingle (tag : Byte) (payload : List Byte)
  | scanCmdStop (tag : Byte) (payload : List Byte)
  | scanCmdConfigure (tag : Byte) (payload : List Byte)
  | channelMode (tag : Byte) (payload : List Byte)
  | zero (tag : Byte) (payload : List Byte)
  | watchWrite (tag : Byte) (payload : List Byte)
  | watchRead (tag : Byte) (payload : List Byte)
  | levelWrite (tag : Byte) (payload : List Byte)
  | levelRead (tag : Byte) (payload : List Byte)
  | levelCmdEnable (tag : Byte) (payload : List Byte)
  | levelCmdDisable (tag : Byte) (payload : List Byte)
  | levelCmdFire (tag : Byte) (payload : List Byte)
  | levelCmdLock (tag : Byte) (payload : List Byte)
  | levelCmdUnlock (tag : Byte) (payload : List Byte)
  | eventsRead (tag : Byte) (payload : List Byte)
  | eventsClear (tag : Byte) (payload : List Byte)
  | maskWrite (tag : Byte) (payload : List Byte)
  | faultRead (tag : Byte) (payload : List Byte)
  | faultClear (tag : Byte) (payload : List Byte)
  | store (tag : Byte) (payload : List Byte)
  | restart (tag : Byte) (payload : List Byte)
  /-- R198: a request whose kind is not one of 0x01 to 0x1F. -/
  | unknownRequest (kind : Byte) (tag : Byte) (payload : List Byte)
  /-- R3: one edge of the quadrature input. -/
  | quadratureEdge (forward : Bool)
  /-- R194: one byte received. -/
  | frameSyncReceived (byte : Byte)
  | powerLoss
  deriving DecidableEq, Repr

end Sys2Proof
end

