-- ==== Sys2Proof/WellFormed.lean ====
section
/-! DEFINITION. Which command terms can occur: the checks that do not depend on the state. -/

namespace Sys2Proof

/-- R193: the payload length of a frame. -/
def payloadFits (payload : List Byte) : Bool := payload.length ≤ 1024

/-- A row of a request kind whose first payload byte selects the row (LINE_CMD, LEVEL_CMD,
SCAN_CMD). `codes` bytes select a row; a payload whose first byte is another row's code is that
row's. A payload with no first byte, or with one that selects no row, is refused alike by every row
of the family (log 23). -/
def selectsRow (codes own : Nat) (payload : List Byte) : Bool :=
  match payload with
  | [] => true
  | b :: _ => b.toNat = own || codes ≤ b.toNat

/-- R194: a frame with its sync byte, 1031 bytes at most. -/
def frameBytesFit (bytes : List Byte) : Bool := bytes.length ≤ 1031

/-- R198: not one of the request kinds 0x01 to 0x1F. -/
def unknownKind (kind : Byte) : Bool := kind.toNat = 0 || 0x1F < kind.toNat

/-- Can this command occur at the part? -/
def Instr.wellFormed : Instr → Bool
  | .powerOn _ => true
  | .resetLineActive => true
  | .resetLineRelease _ => true
  | .positionChange delta => fits64 delta
  | .speedPeriodExpiry => true
  | .warmUpDwellExpiry => true
  | .nipFbActive => true
  | .nipFbInactive => true
  | .engageTimingExpiry => true
  | .liftTimingExpiry => true
  | .estopActive => true
  | .estopReleased => true
  | .guardOpens => true
  | .guardCloses => true
  | .scanCycleExpiry => true
  | .conversionComplete _ => true
  | .silenceTimingExpiry _ => true
  | .heaterWindowStart => true
  | .heaterOnTimeEnd _ => true
  | .webLossExpiry _ => true
  | .watchPersistenceExpiry _ => true
  | .linkSilenceExpiry => true
  | .ticketCompletion => true
  | .storeWriteComplete _ => true
  | .frameReceived bytes => frameBytesFit bytes
  | .interbyteGapTimeout => true
  | .transmitComplete => true
  | .hello _ payload => payloadFits payload
  | .pointRead _ payload => payloadFits payload
  | .pointWrite _ payload => payloadFits payload
  | .lineCmdHeat _ payload => payloadFits payload && selectsRow 6 0 payload
  | .lineCmdCool _ payload => payloadFits payload && selectsRow 6 1 payload
  | .lineCmdRun _ payload => payloadFits payload && selectsRow 6 2 payload
  | .lineCmdStop _ payload => payloadFits payload && selectsRow 6 3 payload
  | .lineCmdThread _ payload => payloadFits payload && selectsRow 6 4 payload
  | .lineCmdClear _ payload => payloadFits payload && selectsRow 6 5 payload
  | .lot _ payload => payloadFits payload
  | .profileWrite _ payload => payloadFits payload
  | .profileRead _ payload => payloadFits payload
  | .profileErase _ payload => payloadFits payload
  | .ticketReq _ payload => payloadFits payload
  | .bandStart _ payload => payloadFits payload
  | .bandCancel _ payload => payloadFits payload
  | .bandVoid _ payload => payloadFits payload
  | .bandRead _ payload => payloadFits payload
  | .queueRead _ payload => payloadFits payload
  | .historyRead _ payload => payloadFits payload
  | .historyClear _ payload => payloadFits payload
  | .scanCmdContinuous _ payload => payloadFits payload && selectsRow 4 0 payload
  | .scanCmdSingle _ payload => payloadFits payload && selectsRow 4 1 payload
  | .scanCmdStop _ payload => payloadFits payload && selectsRow 4 2 payload
  | .scanCmdConfigure _ payload => payloadFits payload && selectsRow 4 3 payload
  | .channelMode _ payload => payloadFits payload
  | .zero _ payload => payloadFits payload
  | .watchWrite _ payload => payloadFits payload
  | .watchRead _ payload => payloadFits payload
  | .levelWrite _ payload => payloadFits payload
  | .levelRead _ payload => payloadFits payload
  | .levelCmdEnable _ payload => payloadFits payload && selectsRow 5 0 payload
  | .levelCmdDisable _ payload => payloadFits payload && selectsRow 5 1 payload
  | .levelCmdFire _ payload => payloadFits payload && selectsRow 5 2 payload
  | .levelCmdLock _ payload => payloadFits payload && selectsRow 5 3 payload
  | .levelCmdUnlock _ payload => payloadFits payload && selectsRow 5 4 payload
  | .eventsRead _ payload => payloadFits payload
  | .eventsClear _ payload => payloadFits payload
  | .maskWrite _ payload => payloadFits payload
  | .faultRead _ payload => payloadFits payload
  | .faultClear _ payload => payloadFits payload
  | .store _ payload => payloadFits payload
  | .restart _ payload => payloadFits payload
  | .unknownRequest kind _ payload => payloadFits payload && unknownKind kind
  | .quadratureEdge _ => true
  | .frameSyncReceived _ => true
  | .powerLoss => true

end Sys2Proof
end

