-- ==== Sys2Proof/Config.lean ====
section
/-! DEFINITION. What an implementation fixes and the values the manual leaves free. -/

namespace Sys2Proof.Config

/-- FREE VALUE (log 6): the encoder count after a count leaves the signed 64-bit range; R3 states no result. -/
opaque countOutside : Int → BitVec 64

/-- FREE VALUE (log 7): what a signed 32-bit point or field holds when the value defined for it
does not fit (R5, R119, R200); the manual states no result. -/
opaque field32Outside : Int → BitVec 32

/-- How many trigger offers are taken before a cascade is watched for a return; DESIGN CHOICE, log 10. -/
def offersAtOnce : Nat := 64

/-- How often the length of the watch doubles, so that 2^64 offers are taken at most; DESIGN CHOICE, log 10. -/
def cascadeRounds : Nat := 58

/-- Table 2-1: channels 0 to 9 serve the loops; channels 10 to 15 are free. -/
def openLimit : Int := 65500
/-- R31, the short limit. -/
def shortLimit : Int := 35

/-- R99. -/
def queueCapacity : Nat := 64
/-- R104, check 7. -/
def ticketingCapacity : Nat := 4
/-- R187. -/
def reportCapacity : Nat := 32
/-- R197. -/
def bufferCapacity : Nat := 4
/-- R134. -/
def ringCapacity : Nat := 8
/-- R35. -/
def lastSecondCapacity : Nat := 10
/-- R126. -/
def doseLimit : Int := 8388607
/-- R204. -/
def siliconRevision : Nat := 2
/-- R208, the last generation number. -/
def lastGeneration : Nat := 4294967295

end Sys2Proof.Config
end

