-- ==== Sys2Proof/Machine/State.lean ====
section
/-! DEFINITION. The state of the VKS-614 as plain data, and the state right after reset. -/

namespace Sys2Proof.Machine

/-! ## Line unit -/

/-- Table 1-4. -/
inductive LineMode where
  | off | warming | ready | running | stopping | threading | safe
  deriving DecidableEq, Repr

/-- Table 1-4; noPhase is NONE. -/
inductive RunPhase where
  | noPhase | engaging | ramping | steady
  deriving DecidableEq, Repr

/-- R7: where the rate of the reference comes from; ACTION carries its own. -/
inductive RateSource where
  | rampRate | stopRate | action (rate : Int)
  deriving DecidableEq, Repr

/-- R8. -/
inductive TargetOwner where
  | line | action
  deriving DecidableEq, Repr

/-- Table 1-6. -/
inductive NipState where
  | opened | closing | closed | lost | opening
  deriving DecidableEq, Repr

/-- The line unit (chapter 1). The nip output, the engage and lift timings, P_out and P_exit are
functions of these fields. -/
structure LineUnit where
  count : Int
  sample : Int
  position : Int
  speed : Int
  reference : Int
  target : Int
  rateSource : RateSource
  owner : TargetOwner
  mode : LineMode
  phase : RunPhase
  nip : NipState
  feed : Bool
  beacon : Bool
  heatHold : Bool
  /-- R11: the dwell timing in progress, with the ready_dwell it started with. -/
  dwell : Option Int
  countsPerMm : Int
  pIn : Int
  lWrap : Int
  pExitMargin : Int
  heatLead : Int
  rampRate : Int
  stopRate : Int
  vMax : Int
  vThread : Int
  liftOnStop : Int
  readyBand : Int
  readyDwell : Int
  deriving DecidableEq, Repr

/-! ## Measurement unit -/

/-- R43. -/
inductive ChannelMode where
  | normal | forced | disabled
  deriving DecidableEq, Repr

/-- R31. -/
inductive ChannelStatus where
  | ok | openCircuit | shorted
  deriving DecidableEq, Repr

/-- R25: a channel record. Rings are oldest first. -/
structure Channel where
  mode : ChannelMode
  status : ChannelStatus
  stale : Bool
  raw : Int
  scaled : Int
  processed : Int
  ring : List Int
  lastSecond : List Int
  zeroCorr : Int
  trim : Int
  scale : Int
  offset : Int
  avgN : Int
  avgWindow : Int
  captureBand : Int
  motionBand : Int
  aperture : Int
  deriving DecidableEq, Repr

/-- Section 2.2. -/
inductive ScanState where
  | idle | continuous | single | halting
  deriving DecidableEq, Repr

structure MeasUnit where
  channels : Vector Channel 16
  scan : ScanState
  first : Fin 16
  last : Fin 16
  sampleTime : Int
  /-- R27: the channel whose conversion is under way. -/
  converting : Option (Fin 16)
  /-- R30: absent is -1. -/
  lastChannel : Option (Fin 16)
  deriving DecidableEq, Repr

/-! ## Loop unit -/

/-- Section 4.3. -/
inductive LoopMode where
  | off | auto | manual | hold
  deriving DecidableEq, Repr

/-- R63: the part of a loop record that all ten loops have; `stale` is the mark of the process
channel as the loop unit was told it (R74). -/
structure LoopRec where
  mode : LoopMode
  override : Option LoopMode
  stale : Bool
  setpoint : Int
  u : Int
  i : Int
  kp : Int
  ki : Int
  outMin : Int
  outMax : Int
  deriving DecidableEq, Repr

/-- A heat zone: over-temperature (R75) and the window generator (R72). -/
structure Zone where
  overTemp : Bool
  relLimit : Option Int
  active : Int
  heaterOn : Bool
  /-- The on-time in progress, in ms; absent when the pin is off or on for the whole window. -/
  onTime : Option Int
  deriving DecidableEq, Repr

/-- R79: the web-loss part of a tension loop. -/
structure Span where
  lossThreshold : Int
  lossTime : Int
  /-- The web-loss timing in progress, with the loss time it started with. -/
  timing : Option Int
  armed : Bool
  deriving DecidableEq, Repr

/-- R80. -/
structure AnalogOut where
  source : Int
  zeroAt : Int
  fullAt : Int
  calLo : Int
  calHi : Int
  counts : Int
  deriving DecidableEq, Repr

structure LoopUnit where
  loops : Vector LoopRec 10
  zones : Vector Zone 6
  spans : Vector Span 4
  outputs : Vector AnalogOut 5
  /-- R73: the length of the window in progress. -/
  windowLength : Int
  heaterWindow : Int
  overheatMargin : Int
  tAbsMax : Int
  standbyTemp : Int
  deriving DecidableEq, Repr

/-! ## Profile store -/

/-- Table 5-1; the empty name is the absent one (R85). `nodes[i][k]` is yield node k of ink i + 1. -/
structure ColourProfile where
  name : List Byte
  tFloor : Int
  dLo : Int
  step : Int
  yRef : Vector Int 6
  bMax : Vector Int 6
  nodes : Vector (Vector Int 9) 6
  deriving DecidableEq, Repr

/-- Table 5-2. -/
structure FabricProfile where
  name : List Byte
  tSet : Int
  vRun : Int
  tension : Vector Int 4
  lTotal : Int
  dScorch : Int
  deriving DecidableEq, Repr

/-- R90: two lots are the same when both fields are equal. -/
structure Lot where
  seq : Nat
  fabric : Fin 8
  deriving DecidableEq, Repr

structure ProfileStore where
  colour : Vector (Option ColourProfile) 16
  fabric : Vector (Option FabricProfile) 8
  current : Option Lot
  heat : Option Lot
  nip : Option Lot
  seqCounter : Nat
  deriving DecidableEq, Repr

/-! ## Band tracker and ticket engine -/

/-- R101. -/
inductive BandState where
  | ticketing | ticketed | onWeb | onDrum | settled
  deriving DecidableEq, Repr

/-- R152. -/
structure TicketMarks where
  noHist : Bool
  lowYield : Bool
  clamp : Bool
  deriving DecidableEq, Repr

structure LaneTicket where
  dPred : Int
  gains : Vector Int 6
  k : Int
  marks : TicketMarks
  deriving DecidableEq, Repr

/-- R153. -/
abbrev Ticket := Vector LaneTicket 6

/-- Table 6-4. -/
structure BandMarks where
  stopped : Bool
  uncertain : Bool
  saturated : Bool
  scorched : Bool
  reversed : Bool
  lifted : Bool
  void : Bool
  dev : Bool
  out : Bool
  deriving DecidableEq, Repr

/-- Table 6-1. -/
structure Band where
  id : Nat
  state : BandState
  lotSeq : Nat
  fabric : Fin 8
  colour : Fin 16
  length : Int
  dTarget : Int
  start : Option Int
  ticket : Option Ticket
  acc : Option (Vector Int 6)
  ratios : Option (Vector Int 6)
  marks : BandMarks
  deriving DecidableEq, Repr

/-- R134. -/
structure HistEntry where
  ratio : Int
  band : Nat
  deriving DecidableEq, Repr

structure BandTracker where
  /-- Oldest first (R99). -/
  queue : List Band
  idCounter : Nat
  /-- One ring per lane, oldest first (R134). -/
  history : Vector (List HistEntry) 6
  doseTol : Int
  deriving DecidableEq, Repr

/-- R142. -/
structure Snapshot where
  counts : Vector Nat 6
  means : Vector Int 6
  gMin : Int
  gMax : Int
  dTarget : Int
  colour : ColourProfile
  lTotal : Int
  deriving DecidableEq, Repr

/-- R140: the band in flight, by its id, and its snapshot. -/
structure InFlight where
  band : Nat
  snapshot : Snapshot
  deriving DecidableEq, Repr

structure TicketEngine where
  /-- Absent is IDLE, present is COMPUTING. -/
  inFlight : Option InFlight
  gMin : Int
  gMax : Int
  deriving DecidableEq, Repr

/-! ## Events and reactions -/

/-- Table 10-1, kinds 1 to 23 in order. -/
inductive EventKind where
  | estop | guard | linkSilent | overheat | sensorFault | webLoss | nipFault | scorch
  | doseDev | doseOut | saturated | zeroLimit | watchTrip | ticketDone | bandSettled
  | lotAtHeat | lotAtNip | modeChange | levelDone | linkError | storeDone | storeFail
  | reportsDropped
  deriving DecidableEq, Repr

/-- R160. -/
inductive WatchCond where
  | off | above | below | outside | inside
  deriving DecidableEq, Repr

inductive WatchState where
  | clear | timing | tripped
  deriving DecidableEq, Repr

structure WatchDef where
  source : Nat
  cond : WatchCond
  lo : Int
  hi : Int
  persist : Int
  deriving DecidableEq, Repr

structure Watch where
  defn : WatchDef
  state : WatchState
  deriving DecidableEq, Repr

/-- R163: the trigger of a level record. -/
inductive Trigger where
  | noTrigger | event (kind : EventKind) | watch (number : Fin 16)
  deriving DecidableEq, Repr

/-- R163, R165. -/
inductive Cause where
  | event (kind : EventKind) (detail : Nat) | watch (number : Fin 16) | fire
  deriving DecidableEq, Repr

/-- Table 9-3. -/
inductive Action where
  | set (dest : Nat) (value : Int)
  | copy (dest source : Nat)
  | ramp (target rate : Int)
  | lift | stop | holdHeat | beacon | report | safe
  deriving DecidableEq, Repr

structure LevelDef where
  trigger : Trigger
  enable : Bool
  actions : List Action
  deriving DecidableEq, Repr

structure Level where
  defn : LevelDef
  pending : Bool
  cause : Option Cause
  /-- 1 to 4, the number of the action at which the run stands. -/
  runPos : Option Nat
  runCause : Option Cause
  deriving DecidableEq, Repr

/-- Which action a level waits on. -/
inductive WaitKind where
  | ramp | lift
  deriving DecidableEq, Repr

/-- What has still to be taken: an offer of a watch trip, the trigger offer of an occurrence (R182 step 4),
the line unit's report that a waited-on action is complete, or an occurrence still to be raised, for an
event whose request lets none come between (R54, log 33). The MODEL's own (log 9). -/
inductive Deferred where
  | trip (watch : Fin 16)
  | occurrence (kind : EventKind) (detail : Nat)
  | actionDone (kind : WaitKind)
  | toRaise (kind : EventKind) (detail : Nat)
  deriving DecidableEq, Repr

structure ReactionUnit where
  watches : Vector Watch 16
  levels : Vector Level 16
  executor : Option (Fin 16)
  lock : Bool
  /-- The MODEL's own field (log 9, 10), oldest first. -/
  deferred : List Deferred
  deriving DecidableEq, Repr

/-- R183: the locus of a captured fault; noLocus is NONE. -/
inductive Locus where
  | noLocus | zone (n : Nat) | channel (n : Nat) | loop (n : Nat) | band (n : Nat)
  deriving DecidableEq, Repr

/-- R189. -/
structure FaultRecord where
  kinds : BitVec 23
  first : Option EventKind
  locus : Option Locus
  mode : Option LineMode
  position : Option Int
  deriving DecidableEq, Repr

/-- Table 11-5: a report as it was built at its offer (R202). -/
inductive Report where
  | event (kind : EventKind) (detail : Nat) (position : Int)
  | ticket (band : Nat) (lotSeq : Nat) (fabric : Fin 8) (colour : Fin 16) (dTarget : Int) (ticket : Ticket)
  | settled (band : Nat) (lotSeq : Nat) (fabric : Fin 8) (colour : Fin 16) (dTarget : Int)
      (acc ratios : Vector Int 6) (marks : BandMarks)
  | reaction (level : Fin 16) (cause : Option Cause) (position : Int) (mode : LineMode)
  deriving DecidableEq, Repr

structure EventUnit where
  /-- Bit k - 1 is the flag of kind k (R184). -/
  set : BitVec 23
  mask : BitVec 23
  reports : List Report
  discarded : Nat
  owed : Bool
  fault : FaultRecord
  deriving DecidableEq, Repr

/-! ## Command link and settings store -/

/-- R193, less the sync and the check. -/
structure Frame where
  kind : Byte
  tag : Byte
  payload : List Byte
  deriving DecidableEq, Repr

/-- R194: inside a frame the receiver holds the bytes gathered after the sync. -/
inductive Receiver where
  | hunting | inside (gathered : List Byte)
  deriving DecidableEq, Repr

/-- R204. -/
inductive StartCause where
  | cold | warm | restart
  deriving DecidableEq, Repr

/-- R208. -/
inductive StoreState where
  | loaded | defaulted
  deriving DecidableEq, Repr

structure Link where
  receiver : Receiver
  /-- Oldest first (R197). -/
  buffer : List Frame
  slot : Option Frame
  /-- R199: the frame being sent. -/
  sending : Option Frame
  /-- R207: RESTART has been taken. -/
  restarting : Bool
  silenceArmed : Bool
  /-- R203: the timing in progress, with the length it started with. -/
  silence : Option Int
  linkSilence : Int
  cause : StartCause
  priorMode : Option LineMode
  storeState : StoreState
  straps : BitVec 2
  deriving DecidableEq, Repr

/-- R209: the contents of an image; `points` lists (number, value). -/
structure Contents where
  points : List (Nat × Int)
  colour : Vector (Option ColourProfile) 16
  fabric : Vector (Option FabricProfile) 8
  watches : Vector WatchDef 16
  levels : Vector LevelDef 16
  mask : BitVec 23
  deriving DecidableEq, Repr

/-- R208: an image place; `check` is the stored check value, valid or not (log 25). -/
inductive Place where
  | blank
  | image (generation : Nat) (contents : Contents) (check : BitVec 16)
  deriving DecidableEq, Repr

structure SettingsStore where
  places : Vector Place 2
  current : Option (Fin 2)
  /-- R209: the place being written; present is store busy. -/
  writing : Option (Fin 2)
  deriving DecidableEq, Repr

/-- The supply, the reset pin and the field inputs, as they stand at the pins. -/
structure Pins where
  powered : Bool
  resetActive : Bool
  estop : Bool
  guardClosed : Bool
  nipFb : Bool
  straps : BitVec 2
  deriving DecidableEq, Repr

structure State where
  pins : Pins
  line : LineUnit
  meas : MeasUnit
  loops : LoopUnit
  profiles : ProfileStore
  bands : BandTracker
  engine : TicketEngine
  react : ReactionUnit
  events : EventUnit
  link : Link
  nvm : SettingsStore
  /-- Points 352 to 359. -/
  user : Vector Int 8
  /-- The commands that are waiting, first in, first out (the interface's queue). -/
  pending : List Instr
  deriving DecidableEq, Repr

/-- Why a step can stop with a fault: never. The part's faults are events (R183), and the spec gives
every command an effect, so the type has no constructor. -/
inductive Fault where
  deriving DecidableEq, Repr

/-- Why a command has no meaning. -/
inductive Refusal where
  /-- Raised by an arm of exec whose meaning is not written yet; safe. -/
  | notModelled (mnemonic : String)
  deriving DecidableEq, Repr

/-! ## Reset values -/

/-- R3 to R22; the settings at the defaults of Table 3-3. -/
def LineUnit.reset : LineUnit where
  count := 0
  sample := 0
  position := 0
  speed := 0
  reference := 0
  target := 0
  rateSource := .rampRate
  owner := .line
  mode := .off
  phase := .noPhase
  nip := .opened
  feed := false
  beacon := false
  heatHold := false
  dwell := none
  countsPerMm := 40
  pIn := 9000
  lWrap := 1500
  pExitMargin := 1000
  heatLead := 2500
  rampRate := 10
  stopRate := 20
  vMax := 1200
  vThread := 50
  liftOnStop := 1
  readyBand := 30
  readyDwell := 20

/-- Table 2-5. -/
def Channel.reset : Channel where
  mode := .normal
  status := .ok
  stale := true
  raw := 0
  scaled := 0
  processed := 0
  ring := []
  lastSecond := []
  zeroCorr := 0
  trim := 0
  scale := 65536
  offset := 0
  avgN := 4
  avgWindow := 0
  captureBand := 255
  motionBand := 50
  aperture := 1000

/-- R30, R46: the first cycle starts at once, on channel 0. -/
def MeasUnit.reset : MeasUnit where
  channels := tab fun _ => Channel.reset
  scan := .continuous
  first := 0
  last := 15
  sampleTime := 4
  converting := some 0
  lastChannel := none

/-- R82 with the defaults of Table 3-3 for a heat loop. -/
def LoopRec.resetHeat : LoopRec where
  mode := .off
  override := none
  stale := true
  setpoint := 0
  u := 0
  i := 0
  kp := 1280
  ki := 16
  outMin := 0
  outMax := 1000

/-- R82 with the defaults of Table 3-3 for a tension loop. -/
def LoopRec.resetTension : LoopRec where
  mode := .off
  override := none
  stale := true
  setpoint := 0
  u := 0
  i := 0
  kp := 256
  ki := 8
  outMin := -200
  outMax := 200

def Zone.reset : Zone where
  overTemp := false
  relLimit := none
  active := 0
  heaterOn := false
  onTime := none

def Span.reset : Span where
  lossThreshold := 100
  lossTime := 500
  timing := none
  armed := true

/-- Output n has source 301 + n (Table 3-3). -/
def AnalogOut.reset (source : Int) : AnalogOut where
  source := source
  zeroAt := 0
  fullAt := 2400
  calLo := 0
  calHi := 65535
  counts := 0

def LoopUnit.reset : LoopUnit where
  loops := tab fun k => if k.val < 6 then LoopRec.resetHeat else LoopRec.resetTension
  zones := tab fun _ => Zone.reset
  spans := tab fun _ => Span.reset
  outputs := tab fun n => AnalogOut.reset (302 + n.val)
  windowLength := 2000
  heaterWindow := 2000
  overheatMargin := 150
  tAbsMax := 2500
  standbyTemp := 1500

/-- R96, R97 with the store state DEFAULTED. -/
def ProfileStore.reset : ProfileStore where
  colour := tab fun _ => none
  fabric := tab fun _ => none
  current := none
  heat := none
  nip := none
  seqCounter := 0

def BandMarks.empty : BandMarks where
  stopped := false
  uncertain := false
  saturated := false
  scorched := false
  reversed := false
  lifted := false
  void := false
  dev := false
  out := false

/-- R122, R139. -/
def BandTracker.reset : BandTracker where
  queue := []
  idCounter := 0
  history := tab fun _ => []
  doseTol := 205

/-- R140. -/
def TicketEngine.reset : TicketEngine where
  inFlight := none
  gMin := 3277
  gMax := 5120

/-- Table 9-4. -/
def WatchDef.factory : WatchDef where
  source := 0
  cond := .off
  lo := 0
  hi := 0
  persist := 0

/-- Table 9-4; level 0 has its fixed enable and actions (R163). -/
def LevelDef.factory (l : Fin 16) : LevelDef :=
  if l.val = 0 then ⟨.noTrigger, true, [.safe, .report]⟩
  else if l.val = 1 then ⟨.event .scorch, true, [.lift, .report]⟩
  else ⟨.noTrigger, false, []⟩

def Watch.ofDef (d : WatchDef) : Watch := ⟨d, .clear⟩

def Level.ofDef (d : LevelDef) : Level where
  defn := d
  pending := false
  cause := none
  runPos := none
  runCause := none

/-- R181. -/
def ReactionUnit.reset : ReactionUnit where
  watches := tab fun _ => Watch.ofDef WatchDef.factory
  levels := tab fun l => Level.ofDef (LevelDef.factory l)
  executor := none
  lock := false
  deferred := []

def FaultRecord.empty : FaultRecord where
  kinds := 0
  first := none
  locus := none
  mode := none
  position := none

/-- R186, Table 10-1: all kinds but 14 TICKET_DONE, 15 BAND_SETTLED, 16 LOT_AT_HEAT, 17 LOT_AT_NIP and
19 LEVEL_DONE. -/
def factoryMask : BitVec 23 := 0x7A1FFF

/-- R192, after a cold reset. -/
def EventUnit.reset : EventUnit where
  set := 0
  mask := factoryMask
  reports := []
  discarded := 0
  owed := false
  fault := FaultRecord.empty

/-- R194, R197, R199, R203, R204 after a cold start of a part as delivered. -/
def Link.reset : Link where
  receiver := .hunting
  buffer := []
  slot := none
  sending := none
  restarting := false
  silenceArmed := false
  silence := none
  linkSilence := 2000
  cause := .cold
  priorMode := none
  storeState := .defaulted
  straps := 0

/-- R208: a part as delivered has both places blank. -/
def SettingsStore.reset : SettingsStore where
  places := tab fun _ => .blank
  current := none
  writing := none

/-- The supply good and the reset pin released; the input levels are the model's choice (log 16). -/
def Pins.reset : Pins where
  powered := true
  resetActive := false
  estop := false
  guardClosed := false
  nipFb := false
  straps := 0

/-- The part right after the cold start of a part as delivered (R205, R206, log 17). -/
def State.reset : State where
  pins := Pins.reset
  line := LineUnit.reset
  meas := MeasUnit.reset
  loops := LoopUnit.reset
  profiles := ProfileStore.reset
  bands := BandTracker.reset
  engine := TicketEngine.reset
  react := ReactionUnit.reset
  events := EventUnit.reset
  link := Link.reset
  nvm := SettingsStore.reset
  user := tab fun _ => 0
  pending := []

end Sys2Proof.Machine
end

