-- ==== Sys2Proof/Machine/Operands.lean ====
section
/-! DEFINITION. The encodings of fields on the link (R193, R200 to R202): codes, bytes and parsing. -/

namespace Sys2Proof.Machine

/-! ## Bytes -/

/-- R193: n bytes of v, least significant first. -/
def leBytes : Nat → Nat → List Byte
  | 0, _ => []
  | n + 1, v => BitVec.ofNat 8 v :: leBytes n (v / 256)

/-- R193: the number that bytes spell, least significant first. -/
def leValue : List Byte → Nat
  | [] => 0
  | b :: bs => b.toNat + 256 * leValue bs

/-- Table 11-2, a 1-byte unsigned field. -/
def enc8 (v : Nat) : List Byte := leBytes 1 v

/-- Table 11-2, a 2-byte unsigned field. -/
def enc16 (v : Nat) : List Byte := leBytes 2 v

/-- Table 11-2, a 4-byte set of kinds. -/
def encSet (v : BitVec 23) : List Byte := leBytes 4 v.toNat

/-- Table 11-2, a 4-byte signed field; a value that does not fit is a free value (log 7). -/
def enc32 (v : Int) : List Byte :=
  if fits32 v then leBytes 4 (BitVec.ofInt 32 v).toNat
  else leBytes 4 (Config.field32Outside v).toNat

/-- Table 11-2, a 2-byte unsigned field holding a ratio, gain or limit factor. -/
def enc16i (v : Int) : List Byte := enc16 v.toNat

def encFlag (b : Bool) : List Byte := enc8 (if b then 1 else 0)

/-- Table 11-2: a presence byte, then the content when present. -/
def encOption {α : Type} (f : α → List Byte) : Option α → List Byte
  | none => enc8 0
  | some a => enc8 1 ++ f a

/-- Table 11-2: the length, then the characters. -/
def encName (name : List Byte) : List Byte := enc8 name.length ++ name

/-- The entries of a table, encoded one after another. -/
def encTable {α : Type} {n : Nat} (f : α → List Byte) (v : Vector α n) : List Byte :=
  v.toList.flatMap f

/-- The signed 32-bit value that four bytes spell. -/
def dec32 (bs : List Byte) : Int := (BitVec.ofNat 32 (leValue bs)).toInt

/-- n bytes of a payload from an offset. -/
def fieldAt (payload : List Byte) (offset n : Nat) : List Byte := (payload.drop offset).take n

def byteAt (payload : List Byte) (offset : Nat) : Nat := leValue (fieldAt payload offset 1)
def wordAt (payload : List Byte) (offset : Nat) : Nat := leValue (fieldAt payload offset 2)
def longAt (payload : List Byte) (offset : Nat) : Int := dec32 (fieldAt payload offset 4)

/-- The number as an index below n, if it is one. -/
def asFin (n v : Nat) : Option (Fin n) := if h : v < n then some ⟨v, h⟩ else none

/-! ## Codes -/

/-- Table 1-4. -/
def LineMode.code : LineMode → Nat
  | .off => 0 | .warming => 1 | .ready => 2 | .running => 3 | .stopping => 4 | .threading => 5
  | .safe => 6

/-- Table 1-4. -/
def RunPhase.code : RunPhase → Nat
  | .noPhase => 0 | .engaging => 1 | .ramping => 2 | .steady => 3

/-- Table 3-3, point 364. -/
def NipState.code : NipState → Nat
  | .opened => 0 | .closing => 1 | .closed => 2 | .lost => 3 | .opening => 4

/-- Table 3-3, point 360. -/
def ScanState.code : ScanState → Nat
  | .idle => 0 | .continuous => 1 | .single => 2 | .halting => 3

/-- Table 11-2. -/
def ChannelMode.code : ChannelMode → Nat
  | .normal => 0 | .forced => 1 | .disabled => 2

def ChannelMode.ofCode : Nat → Option ChannelMode
  | 0 => some .normal
  | 1 => some .forced
  | 2 => some .disabled
  | _ => none

/-- Table 2-2. -/
def ChannelStatus.code : ChannelStatus → Nat
  | .ok => 0 | .openCircuit => 1 | .shorted => 2

/-- R52. -/
def LoopMode.code : LoopMode → Nat
  | .off => 0 | .auto => 1 | .manual => 2 | .hold => 3

/-- R52, for a value already clamped to 0..3. -/
def LoopMode.ofInt (v : Int) : LoopMode :=
  if v ≤ 0 then .off else if v = 1 then .auto else if v = 2 then .manual else .hold

/-- Table 11-2. -/
def BandState.code : BandState → Nat
  | .ticketing => 0 | .ticketed => 1 | .onWeb => 2 | .onDrum => 3 | .settled => 4

/-- Table 10-1. -/
def EventKind.code : EventKind → Nat
  | .estop => 1 | .guard => 2 | .linkSilent => 3 | .overheat => 4 | .sensorFault => 5
  | .webLoss => 6 | .nipFault => 7 | .scorch => 8 | .doseDev => 9 | .doseOut => 10
  | .saturated => 11 | .zeroLimit => 12 | .watchTrip => 13 | .ticketDone => 14
  | .bandSettled => 15 | .lotAtHeat => 16 | .lotAtNip => 17 | .modeChange => 18
  | .levelDone => 19 | .linkError => 20 | .storeDone => 21 | .storeFail => 22
  | .reportsDropped => 23

def EventKind.ofCode : Nat → Option EventKind
  | 1 => some .estop | 2 => some .guard | 3 => some .linkSilent | 4 => some .overheat
  | 5 => some .sensorFault | 6 => some .webLoss | 7 => some .nipFault | 8 => some .scorch
  | 9 => some .doseDev | 10 => some .doseOut | 11 => some .saturated | 12 => some .zeroLimit
  | 13 => some .watchTrip | 14 => some .ticketDone | 15 => some .bandSettled
  | 16 => some .lotAtHeat | 17 => some .lotAtNip | 18 => some .modeChange | 19 => some .levelDone
  | 20 => some .linkError | 21 => some .storeDone | 22 => some .storeFail
  | 23 => some .reportsDropped
  | _ => none

def WatchCond.code : WatchCond → Nat
  | .off => 0 | .above => 1 | .below => 2 | .outside => 3 | .inside => 4

def WatchCond.ofCode : Nat → Option WatchCond
  | 0 => some .off | 1 => some .above | 2 => some .below | 3 => some .outside | 4 => some .inside
  | _ => none

def WatchState.code : WatchState → Nat
  | .clear => 0 | .timing => 1 | .tripped => 2

def StartCause.code : StartCause → Nat
  | .cold => 0 | .warm => 1 | .restart => 2

def StoreState.code : StoreState → Nat
  | .loaded => 0 | .defaulted => 1

/-- Table 11-4. -/
inductive Status where
  | ok | clamped | unknown | length | noSuch | readOnly | mode | busy | inUse | full | order
  | range | state | noLot | noDose
  deriving DecidableEq, Repr

def Status.code : Status → Nat
  | .ok => 0 | .clamped => 1 | .unknown => 2 | .length => 3 | .noSuch => 4 | .readOnly => 5
  | .mode => 6 | .busy => 7 | .inUse => 8 | .full => 9 | .order => 10 | .range => 11
  | .state => 12 | .noLot => 13 | .noDose => 14

/-! ## Composite fields -/

def bitOf (b : Bool) (n : Nat) : Nat := if b then 2 ^ n else 0

/-- Table 11-2: bit 0 NOHIST, bit 1 LOWYIELD, bit 2 CLAMP. -/
def encTicketMarks (m : TicketMarks) : List Byte :=
  enc8 (bitOf m.noHist 0 + bitOf m.lowYield 1 + bitOf m.clamp 2)

/-- Table 11-2, band marks. -/
def encBandMarks (m : BandMarks) : List Byte :=
  enc16 (bitOf m.stopped 0 + bitOf m.uncertain 1 + bitOf m.saturated 2 + bitOf m.scorched 3 +
    bitOf m.reversed 4 + bitOf m.lifted 5 + bitOf m.void 6 + bitOf m.dev 7 + bitOf m.out 8)

/-- Table 11-2, level trigger. -/
def encTrigger : Trigger → List Byte
  | .noTrigger => enc8 0 ++ enc8 0
  | .event k => enc8 1 ++ enc8 k.code
  | .watch w => enc8 2 ++ enc8 w.val

/-- Table 11-2, cause. -/
def encCause : Cause → List Byte
  | .event k d => enc8 1 ++ enc8 k.code ++ enc16 d
  | .watch w => enc8 2 ++ enc8 w.val ++ enc16 0
  | .fire => enc8 3 ++ enc8 0 ++ enc16 0

/-- Table 11-2, one action of an action list. -/
def encAction : Action → List Byte
  | .set d v => enc8 0 ++ enc16 d ++ enc32 v
  | .copy d src => enc8 1 ++ enc16 d ++ enc16 src
  | .ramp t r => enc8 2 ++ enc16i t ++ enc16i r
  | .lift => enc8 3
  | .stop => enc8 4
  | .holdHeat => enc8 5
  | .beacon => enc8 6
  | .report => enc8 7
  | .safe => enc8 8

def encActions (as : List Action) : List Byte := enc8 as.length ++ as.flatMap encAction

/-- Table 11-2, locus. -/
def encLocus : Locus → List Byte
  | .noLocus => enc8 0 ++ enc16 0
  | .zone n => enc8 1 ++ enc16 n
  | .channel n => enc8 2 ++ enc16 n
  | .loop n => enc8 3 ++ enc16 n
  | .band n => enc8 4 ++ enc16 n

/-- Table 11-5, the cause fields of a REACTION report; a run without a cause cannot stand, and is
given as zeros (log 27). -/
def encReactionCause : Option Cause → List Byte
  | some c => encCause c
  | none => enc8 0 ++ enc8 0 ++ enc16 0

/-- Table 11-6, the ticket part: per lane D_pred, six gains, K and the ticket marks. -/
def encLaneTicket (t : LaneTicket) : List Byte :=
  enc32 t.dPred ++ encTable enc16i t.gains ++ enc16i t.k ++ encTicketMarks t.marks

/-- Table 11-5. -/
def Report.kindByte : Report → Byte
  | .event .. => 0x40
  | .ticket .. => 0x41
  | .settled .. => 0x42
  | .reaction .. => 0x43

/-- Table 11-5. -/
def Report.payload : Report → List Byte
  | .event k d pos => enc8 k.code ++ enc16 d ++ enc32 pos
  | .ticket band seq fabric colour dTarget t =>
    enc16 band ++ enc16 seq ++ enc8 fabric.val ++ enc8 colour.val ++ enc32 dTarget ++
      encTable (fun l => enc32 l.dPred) t ++ encTable (fun l => encTable enc16i l.gains) t ++
      encTable (fun l => enc16i l.k) t ++ encTable (fun l => encTicketMarks l.marks) t
  | .settled band seq fabric colour dTarget acc ratios marks =>
    enc16 band ++ enc16 seq ++ enc8 fabric.val ++ enc8 colour.val ++ enc32 dTarget ++
      encTable enc32 acc ++ encTable enc16i ratios ++ encBandMarks marks
  | .reaction level cause pos mode =>
    enc8 level.val ++ encReactionCause cause ++ enc32 pos ++ enc8 mode.code

/-- R201: reports have tag 0. -/
def Report.frame (r : Report) : Frame := ⟨r.kindByte, 0, r.payload⟩

/-! ## Parsing of requests -/

/-- A list cut into pieces of n + 1 bytes; a last shorter piece is dropped. -/
def pieces (n : Nat) : Nat → List Byte → List (List Byte)
  | 0, _ => []
  | k + 1, bs => if bs.length < n then [] else bs.take n :: pieces n k (bs.drop n)

/-- R178, check 5: one action, with the bytes after it. A kind byte outside the nine carries no
values and is answered by the check of the kinds (log 22). `none` is a payload that ends too early. -/
def parseAction (bs : List Byte) : Option (Option Action × List Byte) :=
  match bs with
  | [] => none
  | k :: rest =>
    match k.toNat with
    | 0 => if rest.length < 6 then none
           else some (some (.set (wordAt rest 0) (longAt rest 2)), rest.drop 6)
    | 1 => if rest.length < 4 then none
           else some (some (.copy (wordAt rest 0) (wordAt rest 2)), rest.drop 4)
    | 2 => if rest.length < 4 then none
           else some (some (.ramp (wordAt rest 0) (wordAt rest 2)), rest.drop 4)
    | 3 => some (some .lift, rest)
    | 4 => some (some .stop, rest)
    | 5 => some (some .holdHeat, rest)
    | 6 => some (some .beacon, rest)
    | 7 => some (some .report, rest)
    | 8 => some (some .safe, rest)
    | _ => some (none, rest)

/-- R178, check 1: n actions that use up the bytes; an action of no kind is kept as `none`. -/
def parseActions : Nat → List Byte → Option (List (Option Action))
  | 0, [] => some []
  | 0, _ :: _ => none
  | n + 1, bs =>
    match parseAction bs with
    | none => none
    | some (a, rest) =>
      match parseActions n rest with
      | none => none
      | some as => some (a :: as)

/-- Table 11-2, level trigger; `none` fails check 3 of R178 (log 22). -/
def parseTrigger (kind number : Nat) : Option Trigger :=
  match kind with
  | 0 => if number = 0 then some .noTrigger else none
  | 1 => (EventKind.ofCode number).map Trigger.event
  | 2 => (asFin 16 number).map Trigger.watch
  | _ => none

/-- R200: a set of kinds of four bytes; `none` names a kind outside 1..23. -/
def parseKindSet (bs : List Byte) : Option (BitVec 23) :=
  let v := leValue bs
  if v < 2 ^ 23 then some (BitVec.ofNat 23 v) else none

end Sys2Proof.Machine
end

