-- ==== Sys2Proof/Machine/Flags.lean ====
section
/-! DEFINITION. Events and the fault record (chapter 10): the event set, the capture of faults, the
report queue, and the transmitter that takes frames from the reply slot and the queue (R199). -/

namespace Sys2Proof.Machine

/-- The bit of kind k in a set of kinds: bit k - 1 (Table 11-2). -/
def EventKind.bit (k : EventKind) : BitVec 23 := 1#23 <<< (k.code - 1)

def hasKind (set : BitVec 23) (k : EventKind) : Bool := set.getLsbD (k.code - 1)

/-- R183: is this occurrence a fault? -/
def isFault (k : EventKind) (detail : Nat) : Bool :=
  match k with
  | .estop | .guard | .linkSilent | .overheat | .webLoss | .nipFault | .scorch => true
  | .sensorFault => detail ≤ 9
  | _ => false

/-- R183, the locus table. -/
def locusOf (k : EventKind) (detail : Nat) : Locus :=
  match k with
  | .overheat => .zone detail
  | .sensorFault => .channel detail
  | .webLoss => .loop detail
  | .scorch => .band detail
  | _ => .noLocus

/-- R189: the record is empty when its kind set is empty. -/
def FaultRecord.isEmpty (r : FaultRecord) : Bool := r.kinds == 0

/-- R189. -/
def FaultRecord.capture (r : FaultRecord) (k : EventKind) (detail : Nat) (mode : LineMode)
    (position : Int) : FaultRecord :=
  if r.isEmpty then
    { kinds := k.bit, first := some k, locus := some (locusOf k detail), mode := some mode,
      position := some position }
  else { r with kinds := r.kinds ||| k.bit }

/-- R182 step 1. -/
def setFlag (k : EventKind) (s : State) : State :=
  { s with events.set := s.events.set ||| k.bit }

/-- R182 step 2. -/
def captureFault (k : EventKind) (detail : Nat) (s : State) : State :=
  if isFault k detail then
    { s with events.fault := s.events.fault.capture k detail s.line.mode s.line.position }
  else s

/-- R167, R182 step 4: the trigger offer, to be taken after the step (log 9). -/
def deferOffer (d : Deferred) (s : State) : State :=
  { s with react.deferred := s.react.deferred ++ [d] }

/-- R188: an owed notice joins the queue as a report leaves it. -/
def payNotice (s : State) : State :=
  if s.events.owed then
    { s with
      events.reports :=
        s.events.reports ++ [.event .reportsDropped s.events.discarded s.line.position]
      events.discarded := 0
      events.owed := false }
  else s

/-- R199: an idle transmitter takes the reply, else the oldest report. -/
def transmitNext (s : State) : State :=
  match s.link.sending with
  | some _ => s
  | none =>
    match s.link.slot with
    | some f => { s with link.sending := some f, link.slot := none }
    | none =>
      match s.events.reports with
      | [] => s
      | r :: rest =>
        payNotice { s with link.sending := some r.frame, events.reports := rest }

/-- R188: a report offered to a full queue. REPORTS_DROPPED is raised with no report of its own. -/
def discardReport (s : State) : State :=
  let s1 := { s with events.discarded := min 65535 (s.events.discarded + 1) }
  let s2 := if hasKind s1.events.mask .reportsDropped then { s1 with events.owed := true } else s1
  deferOffer (.occurrence .reportsDropped s2.events.discarded) (setFlag .reportsDropped s2)

/-- R187. -/
def offerReport (r : Report) (s : State) : State :=
  if s.events.reports.length < Config.reportCapacity then
    transmitNext { s with events.reports := s.events.reports ++ [r] }
  else discardReport s

/-- R182 step 3. REPORTS_DROPPED is the exception: R188 gives its report. -/
def reportEvent (k : EventKind) (detail : Nat) (s : State) : State :=
  if k ≠ .reportsDropped ∧ hasKind s.events.mask k = true then
    offerReport (.event k detail s.line.position) s
  else s

/-- R182: an occurrence is raised. Steps 1 to 3 are taken at once, and the trigger offer of step 4
waits for the end of the step that raised it (log 9). -/
def record (k : EventKind) (detail : Nat) (s : State) : State :=
  deferOffer (.occurrence k detail) (reportEvent k detail (captureFault k detail (setFlag k s)))

end Sys2Proof.Machine
end

