-- ==== Sys2Proof/Machine/Points.lean ====
section
/-! DEFINITION. The point table (chapter 3): the map of Table 3-3, classes, ranges, and the value each
point shows. -/

namespace Sys2Proof.Machine

/-- The present points of Table 3-3. Channel c is `Fin 16`; channel 6 + f is `f : Fin 4`; loop k + 1 is
`k : Fin 10`; loop 7 + t is `t : Fin 4`; zone and lane z + 1 are `z : Fin 6`; output n + 1 is `n : Fin 5`;
user point u + 1 is `u : Fin 8`. -/
inductive Point where
  | lineMode | runPhase | webPosition | measuredSpeed | speedReference | speedTarget | bandCount
  | currentLotSeq | currentFabric | heatLotSeq | nipLotSeq | nipFb | estop | guard | reactionLock
  | lastChannel | countsPerMm | pIn | lWrap | pExitMargin | heatLead | rampRate | stopRate | vMax
  | vThread | liftOnStop | readyBand | readyDwell | linkSilence | overheatMargin | tAbsMax
  | standbyTemp | doseTol | gMin | gMax | heaterWindow
  | chanRaw (c : Fin 16) | chanScaled (c : Fin 16) | chanProcessed (c : Fin 16)
  | chanStatus (c : Fin 16)
  | trim (c : Fin 16) | scale (c : Fin 16) | offset (c : Fin 16) | avgN (c : Fin 16)
  | avgWindow (c : Fin 16) | zeroCorr (c : Fin 16)
  | captureBand (f : Fin 4) | motionBand (f : Fin 4) | aperture (f : Fin 4)
  | loopMode (k : Fin 10) | loopSetpoint (k : Fin 10) | loopOutput (k : Fin 10)
  | loopIntegrator (k : Fin 10) | loopKp (k : Fin 10) | loopKi (k : Fin 10)
  | loopOutMin (k : Fin 10) | loopOutMax (k : Fin 10)
  | lossThreshold (t : Fin 4) | lossTime (t : Fin 4)
  | activeDuty (z : Fin 6) | drumReference | spanReference (t : Fin 4)
  | outSource (n : Fin 5) | outZero (n : Fin 5) | outFull (n : Fin 5) | outCalLo (n : Fin 5)
  | outCalHi (n : Fin 5) | outCounts (n : Fin 5)
  | histCount (z : Fin 6) | histMean (z : Fin 6)
  | user (u : Fin 8)
  | scanState | scanFirst | scanLast | sampleTime | nipState | feed | beacon | heatHold
  deriving DecidableEq, Repr

/-- Table 3-3, the Number column. -/
def Point.number : Point → Nat
  | .lineMode => 0 | .runPhase => 1 | .webPosition => 2 | .measuredSpeed => 3
  | .speedReference => 4 | .speedTarget => 5 | .bandCount => 6 | .currentLotSeq => 7
  | .currentFabric => 8 | .heatLotSeq => 9 | .nipLotSeq => 10 | .nipFb => 11 | .estop => 12
  | .guard => 13 | .reactionLock => 14 | .lastChannel => 15 | .countsPerMm => 16 | .pIn => 17
  | .lWrap => 18 | .pExitMargin => 19 | .heatLead => 20 | .rampRate => 21 | .stopRate => 22
  | .vMax => 23 | .vThread => 24 | .liftOnStop => 25 | .readyBand => 26 | .readyDwell => 27
  | .linkSilence => 28 | .overheatMargin => 29 | .tAbsMax => 30 | .standbyTemp => 31
  | .doseTol => 32 | .gMin => 33 | .gMax => 34 | .heaterWindow => 35
  | .chanRaw c => 36 + 4 * c.val | .chanScaled c => 37 + 4 * c.val
  | .chanProcessed c => 38 + 4 * c.val | .chanStatus c => 39 + 4 * c.val
  | .trim c => 100 + 6 * c.val | .scale c => 101 + 6 * c.val | .offset c => 102 + 6 * c.val
  | .avgN c => 103 + 6 * c.val | .avgWindow c => 104 + 6 * c.val | .zeroCorr c => 105 + 6 * c.val
  | .captureBand f => 196 + 3 * f.val | .motionBand f => 197 + 3 * f.val
  | .aperture f => 198 + 3 * f.val
  | .loopMode k => 208 + 8 * k.val | .loopSetpoint k => 209 + 8 * k.val
  | .loopOutput k => 210 + 8 * k.val | .loopIntegrator k => 211 + 8 * k.val
  | .loopKp k => 212 + 8 * k.val | .loopKi k => 213 + 8 * k.val
  | .loopOutMin k => 214 + 8 * k.val | .loopOutMax k => 215 + 8 * k.val
  | .lossThreshold t => 288 + 2 * t.val | .lossTime t => 289 + 2 * t.val
  | .activeDuty z => 296 + z.val | .drumReference => 302 | .spanReference t => 303 + t.val
  | .outSource n => 310 + 6 * n.val | .outZero n => 311 + 6 * n.val | .outFull n => 312 + 6 * n.val
  | .outCalLo n => 313 + 6 * n.val | .outCalHi n => 314 + 6 * n.val
  | .outCounts n => 315 + 6 * n.val
  | .histCount z => 340 + 2 * z.val | .histMean z => 341 + 2 * z.val
  | .user u => 352 + u.val
  | .scanState => 360 | .scanFirst => 361 | .scanLast => 362 | .sampleTime => 363
  | .nipState => 364 | .feed => 365 | .beacon => 366 | .heatHold => 367

/-- Points 0 to 35, in order. -/
def lowPoints : List Point :=
  [.lineMode, .runPhase, .webPosition, .measuredSpeed, .speedReference, .speedTarget, .bandCount,
    .currentLotSeq, .currentFabric, .heatLotSeq, .nipLotSeq, .nipFb, .estop, .guard, .reactionLock,
    .lastChannel, .countsPerMm, .pIn, .lWrap, .pExitMargin, .heatLead, .rampRate, .stopRate, .vMax,
    .vThread, .liftOnStop, .readyBand, .readyDwell, .linkSilence, .overheatMargin, .tAbsMax,
    .standbyTemp, .doseTol, .gMin, .gMax, .heaterWindow]

/-- Points 360 to 367, in order. -/
def highPoints : List Point :=
  [.scanState, .scanFirst, .scanLast, .sampleTime, .nipState, .feed, .beacon, .heatHold]

/-- The point of a group of `width` points an item, by its place r in the item. -/
def channelLivePoint (c : Fin 16) (r : Nat) : Point :=
  match r with
  | 0 => .chanRaw c | 1 => .chanScaled c | 2 => .chanProcessed c | _ => .chanStatus c

def channelSettingPoint (c : Fin 16) (r : Nat) : Point :=
  match r with
  | 0 => .trim c | 1 => .scale c | 2 => .offset c | 3 => .avgN c | 4 => .avgWindow c
  | _ => .zeroCorr c

def forcePoint (f : Fin 4) (r : Nat) : Point :=
  match r with
  | 0 => .captureBand f | 1 => .motionBand f | _ => .aperture f

def loopPoint (k : Fin 10) (r : Nat) : Point :=
  match r with
  | 0 => .loopMode k | 1 => .loopSetpoint k | 2 => .loopOutput k | 3 => .loopIntegrator k
  | 4 => .loopKp k | 5 => .loopKi k | 6 => .loopOutMin k | _ => .loopOutMax k

def lossPoint (t : Fin 4) (r : Nat) : Point :=
  match r with
  | 0 => .lossThreshold t | _ => .lossTime t

def outputPoint (n : Fin 5) (r : Nat) : Point :=
  match r with
  | 0 => .outSource n | 1 => .outZero n | 2 => .outFull n | 3 => .outCalLo n | 4 => .outCalHi n
  | _ => .outCounts n

def historyPoint (z : Fin 6) (r : Nat) : Point :=
  match r with
  | 0 => .histCount z | _ => .histMean z

/-- R47: the point of a number, or absent. -/
def Point.ofNumber (n : Nat) : Option Point :=
  if n < 36 then lowPoints[n]?
  else if n < 100 then (asFin 16 ((n - 36) / 4)).map fun c => channelLivePoint c ((n - 36) % 4)
  else if n < 196 then (asFin 16 ((n - 100) / 6)).map fun c => channelSettingPoint c ((n - 100) % 6)
  else if n < 208 then (asFin 4 ((n - 196) / 3)).map fun f => forcePoint f ((n - 196) % 3)
  else if n < 288 then (asFin 10 ((n - 208) / 8)).map fun k => loopPoint k ((n - 208) % 8)
  else if n < 296 then (asFin 4 ((n - 288) / 2)).map fun t => lossPoint t ((n - 288) % 2)
  else if n < 302 then (asFin 6 (n - 296)).map Point.activeDuty
  else if n = 302 then some .drumReference
  else if n < 307 then (asFin 4 (n - 303)).map Point.spanReference
  else if n < 310 then none
  else if n < 340 then (asFin 5 ((n - 310) / 6)).map fun o => outputPoint o ((n - 310) % 6)
  else if n < 352 then (asFin 6 ((n - 340) / 2)).map fun z => historyPoint z ((n - 340) % 2)
  else if n < 360 then (asFin 8 (n - 352)).map Point.user
  else if n < 368 then highPoints[n - 360]?
  else none

/-- R47: the point that a signed value names as a number (an analog output source, R57). -/
def Point.ofInt (v : Int) : Option Point := if v < 0 then none else Point.ofNumber v.toNat

inductive PointClass where
  | live | setting | guarded | forceable
  deriving DecidableEq, Repr

/-- Table 3-3, the Class column. -/
def Point.cls : Point → PointClass
  | .lineMode | .runPhase | .webPosition | .measuredSpeed | .speedReference | .speedTarget
  | .bandCount | .currentLotSeq | .currentFabric | .heatLotSeq | .nipLotSeq | .nipFb | .estop
  | .guard | .reactionLock | .lastChannel => .live
  | .countsPerMm | .pIn | .lWrap | .pExitMargin | .heatLead | .vMax | .tAbsMax => .guarded
  | .rampRate | .stopRate | .vThread | .liftOnStop | .readyBand | .readyDwell | .linkSilence
  | .overheatMargin | .standbyTemp | .doseTol | .gMin | .gMax | .heaterWindow => .setting
  | .chanRaw _ | .chanScaled _ | .chanProcessed _ => .forceable
  | .chanStatus _ => .live
  | .trim _ | .scale _ | .offset _ | .avgN _ | .avgWindow _ => .setting
  | .zeroCorr _ => .live
  | .captureBand _ | .motionBand _ | .aperture _ => .setting
  | .loopMode _ | .loopOutput _ | .loopKp _ | .loopKi _ | .loopOutMin _ | .loopOutMax _ => .setting
  | .loopSetpoint _ | .loopIntegrator _ => .live
  | .lossThreshold _ | .lossTime _ => .setting
  | .activeDuty _ | .drumReference | .spanReference _ => .live
  | .outSource _ | .outZero _ | .outFull _ | .outCalLo _ | .outCalHi _ => .setting
  | .outCounts _ => .live
  | .histCount _ | .histMean _ => .live
  | .user _ => .setting
  | .scanState | .scanFirst | .scanLast | .sampleTime | .nipState | .feed | .beacon
  | .heatHold => .live

/-! ## Values that points show -/

def ofBool (b : Bool) : Int := if b then 1 else 0

/-- R26, Table 2-2. -/
def Channel.statusValue (c : Channel) : Int :=
  c.status.code + (if c.stale then 8 else 0) + 16 * c.mode.code

/-- R136. -/
def ringMean (ring : List HistEntry) : Int :=
  if ring.isEmpty then 4096 else floorQuot ((ring.map HistEntry.ratio).sum) ring.length

/-- The loop of tension span t: loop 7 + t, index 6 + t. -/
def spanLoop (t : Fin 4) : Fin 10 := ⟨6 + t.val, by omega⟩

/-- The loop of heat zone z: loop z + 1. -/
def zoneLoop (z : Fin 6) : Fin 10 := ⟨z.val, by omega⟩

/-- R78: the drive reference of span t. -/
def spanReference (s : State) (t : Fin 4) : Int :=
  floorQuot (s.line.reference * (1000 + (s.loops.loops[spanLoop t]).u)) 1000

def lotSeqValue (l : Option Lot) : Int :=
  match l with
  | none => 0
  | some l => l.seq

/-- Channel 6 + f. -/
def forceChannel (f : Fin 4) : Fin 16 := ⟨6 + f.val, by omega⟩

/-- R47: the value a point shows is its owner's value at the moment of the read. -/
def readPoint (s : State) : Point → Int
  | .lineMode => s.line.mode.code
  | .runPhase => s.line.phase.code
  | .webPosition => s.line.position
  | .measuredSpeed => s.line.speed
  | .speedReference => s.line.reference
  | .speedTarget => s.line.target
  | .bandCount => s.bands.queue.length
  | .currentLotSeq => lotSeqValue s.profiles.current
  | .currentFabric =>
    match s.profiles.current with
    | none => -1
    | some l => l.fabric.val
  | .heatLotSeq => lotSeqValue s.profiles.heat
  | .nipLotSeq => lotSeqValue s.profiles.nip
  | .nipFb => ofBool s.pins.nipFb
  | .estop => ofBool s.pins.estop
  | .guard => ofBool s.pins.guardClosed
  | .reactionLock => ofBool s.react.lock
  | .lastChannel =>
    match s.meas.lastChannel with
    | none => -1
    | some c => c.val
  | .countsPerMm => s.line.countsPerMm
  | .pIn => s.line.pIn
  | .lWrap => s.line.lWrap
  | .pExitMargin => s.line.pExitMargin
  | .heatLead => s.line.heatLead
  | .rampRate => s.line.rampRate
  | .stopRate => s.line.stopRate
  | .vMax => s.line.vMax
  | .vThread => s.line.vThread
  | .liftOnStop => s.line.liftOnStop
  | .readyBand => s.line.readyBand
  | .readyDwell => s.line.readyDwell
  | .linkSilence => s.link.linkSilence
  | .overheatMargin => s.loops.overheatMargin
  | .tAbsMax => s.loops.tAbsMax
  | .standbyTemp => s.loops.standbyTemp
  | .doseTol => s.bands.doseTol
  | .gMin => s.engine.gMin
  | .gMax => s.engine.gMax
  | .heaterWindow => s.loops.heaterWindow
  | .chanRaw c => (s.meas.channels[c]).raw
  | .chanScaled c => (s.meas.channels[c]).scaled
  | .chanProcessed c => (s.meas.channels[c]).processed
  | .chanStatus c => (s.meas.channels[c]).statusValue
  | .trim c => (s.meas.channels[c]).trim
  | .scale c => (s.meas.channels[c]).scale
  | .offset c => (s.meas.channels[c]).offset
  | .avgN c => (s.meas.channels[c]).avgN
  | .avgWindow c => (s.meas.channels[c]).avgWindow
  | .zeroCorr c => (s.meas.channels[c]).zeroCorr
  | .captureBand f => (s.meas.channels[forceChannel f]).captureBand
  | .motionBand f => (s.meas.channels[forceChannel f]).motionBand
  | .aperture f => (s.meas.channels[forceChannel f]).aperture
  | .loopMode k => (s.loops.loops[k]).mode.code
  | .loopSetpoint k => (s.loops.loops[k]).setpoint
  | .loopOutput k => (s.loops.loops[k]).u
  | .loopIntegrator k => (s.loops.loops[k]).i
  | .loopKp k => (s.loops.loops[k]).kp
  | .loopKi k => (s.loops.loops[k]).ki
  | .loopOutMin k => (s.loops.loops[k]).outMin
  | .loopOutMax k => (s.loops.loops[k]).outMax
  | .lossThreshold t => (s.loops.spans[t]).lossThreshold
  | .lossTime t => (s.loops.spans[t]).lossTime
  | .activeDuty z => (s.loops.zones[z]).active
  | .drumReference => s.line.reference
  | .spanReference t => spanReference s t
  | .outSource n => (s.loops.outputs[n]).source
  | .outZero n => (s.loops.outputs[n]).zeroAt
  | .outFull n => (s.loops.outputs[n]).fullAt
  | .outCalLo n => (s.loops.outputs[n]).calLo
  | .outCalHi n => (s.loops.outputs[n]).calHi
  | .outCounts n => (s.loops.outputs[n]).counts
  | .histCount z => (s.bands.history[z]).length
  | .histMean z => ringMean s.bands.history[z]
  | .user u => s.user[u]
  | .scanState => s.meas.scan.code
  | .scanFirst => s.meas.first.val
  | .scanLast => s.meas.last.val
  | .sampleTime => s.meas.sampleTime
  | .nipState => s.line.nip.code
  | .feed => ofBool s.line.feed
  | .beacon => ofBool s.line.beacon
  | .heatHold => ofBool s.line.heatHold

/-! ## Output pins (functions of the state) -/

/-- R205: the part runs while it has power and the reset line is released. -/
def State.runs (s : State) : Bool := s.pins.powered && !s.pins.resetActive

/-- Table 1-6: the NIP output. -/
def NipState.output : NipState → Bool
  | .opened => false | .closing => true | .closed => true | .lost => true | .opening => false

def nipPin (s : State) : Bool := s.runs && s.line.nip.output

/-- R22, R23. -/
def feedPin (s : State) : Bool := s.runs && s.line.feed && !s.pins.estop

def beaconPin (s : State) : Bool := s.runs && s.line.beacon

/-- R23, R72. -/
def heaterPin (s : State) (z : Fin 6) : Bool :=
  s.runs && (s.loops.zones[z]).heaterOn && !s.pins.estop

/-- R80, R205. -/
def analogPin (s : State) (n : Fin 5) : Int := if s.runs then (s.loops.outputs[n]).counts else 0

/-- R38: the silence timing runs exactly for a NORMAL channel without the stale mark. -/
def Channel.silenceRuns (c : Channel) : Bool := c.mode == .normal && !c.stale

end Sys2Proof.Machine
end

