-- ==== Sys2Proof/Machine/Ops.lean ====
section
/-! DEFINITION. The shared operations on records of the state, and the shared reads of profiles. -/

namespace Sys2Proof.Machine

def modifyChannel (c : Fin 16) (f : Channel → Channel) (s : State) : State :=
  { s with meas.channels := upd s.meas.channels c (f s.meas.channels[c]) }

def modifyLoop (k : Fin 10) (f : LoopRec → LoopRec) (s : State) : State :=
  { s with loops.loops := upd s.loops.loops k (f s.loops.loops[k]) }

def modifyZone (z : Fin 6) (f : Zone → Zone) (s : State) : State :=
  { s with loops.zones := upd s.loops.zones z (f s.loops.zones[z]) }

def modifySpan (t : Fin 4) (f : Span → Span) (s : State) : State :=
  { s with loops.spans := upd s.loops.spans t (f s.loops.spans[t]) }

def modifyOutput (n : Fin 5) (f : AnalogOut → AnalogOut) (s : State) : State :=
  { s with loops.outputs := upd s.loops.outputs n (f s.loops.outputs[n]) }

def modifyWatch (w : Fin 16) (f : Watch → Watch) (s : State) : State :=
  { s with react.watches := upd s.react.watches w (f s.react.watches[w]) }

def modifyLevel (l : Fin 16) (f : Level → Level) (s : State) : State :=
  { s with react.levels := upd s.react.levels l (f s.react.levels[l]) }

/-- The band with an id, if the queue holds one (ids are distinct, R99). -/
def findBand (s : State) (id : Nat) : Option Band := s.bands.queue.find? fun b => b.id == id

/-- The record of a band replaced; the queue keeps its order (R99). -/
def modifyBand (id : Nat) (f : Band → Band) (s : State) : State :=
  { s with bands.queue := s.bands.queue.map fun b => if b.id = id then f b else b }

/-- A record leaves the queue. -/
def removeBand (id : Nat) (s : State) : State :=
  { s with bands.queue := s.bands.queue.filter fun b => b.id != id }

/-- Every value at the lower bound of Table 5-2: what a reader is given for a slot that is empty, which
R87 rules out for every slot that a lot or band names (log 27). -/
def absentFabric : FabricProfile where
  name := []
  tSet := 1200
  vRun := 50
  tension := tab fun _ => 0
  lTotal := 4096
  dScorch := 1

/-- As `absentFabric`, for Table 5-1. -/
def absentColour : ColourProfile where
  name := []
  tFloor := 1000
  dLo := 0
  step := 1
  yRef := tab fun _ => 1
  bMax := tab fun _ => 0
  nodes := tab fun _ => tab fun _ => 0

def fabricOf (s : State) (slot : Fin 8) : FabricProfile :=
  match s.profiles.fabric[slot] with
  | some p => p
  | none => absentFabric

def colourOf (s : State) (slot : Fin 16) : ColourProfile :=
  match s.profiles.colour[slot] with
  | some p => p
  | none => absentColour

/-- R6. -/
def LineUnit.pOut (l : LineUnit) : Int := l.pIn + l.lWrap

/-- R6. -/
def LineUnit.pExit (l : LineUnit) : Int := l.pOut + l.pExitMargin

/-- A loop of the heat kind (R63). -/
def isHeatLoop (k : Fin 10) : Bool := k.val < 6

/-- The zone of a heat loop. -/
def loopZone (k : Fin 10) : Option (Fin 6) := asFin 6 k.val

/-- The span of a tension loop. -/
def loopSpan (k : Fin 10) : Option (Fin 4) := if k.val < 6 then none else asFin 4 (k.val - 6)

end Sys2Proof.Machine
end

