-- ==== Sys2Proof/Machine/Loops.lean ====
section
/-! DEFINITION. Loops, heaters and drive outputs (chapter 4): the operations of the loop unit that raise
no event. -/

namespace Sys2Proof.Machine

/-! ## Control law and modes -/

/-- R65. -/
def computeLoop (l : LoopRec) (processed : Int) : LoopRec :=
  let e := l.setpoint - processed
  let windsUp := (l.u = l.outMax ∧ 0 < e) ∨ (l.u = l.outMin ∧ e < 0)
  let i := clampTo (256 * l.outMin) (256 * l.outMax) (if windsUp then l.i else l.i + l.ki * e)
  { l with i := i, u := clampTo l.outMin l.outMax (floorQuot (l.kp * e + i) 256) }

/-- R68, R69: the base mode that the line mode and the speed reference set. -/
def baseMode (s : State) (k : Fin 10) : LoopMode :=
  if isHeatLoop k then
    match s.line.mode with
    | .off | .safe => .off
    | .warming | .ready | .running | .stopping | .threading => .auto
  else
    match s.line.mode with
    | .running | .stopping | .threading => if 0 < s.line.reference then .auto else .hold
    | .off | .warming | .ready | .safe => .off

/-- R69: a tension loop with no override holds while its channel is stale. -/
def ownMode (k : Fin 10) (base : LoopMode) (stale : Bool) : LoopMode :=
  if base = .auto ∧ stale = true ∧ isHeatLoop k = false then .hold else base

/-- R67: the effects of a mode on the loop record at its entry. -/
def enterMode (m : LoopMode) (l : LoopRec) : LoopRec :=
  match m with
  | .off =>
    { l with
      mode := .off, override := none, u := clampTo l.outMin l.outMax 0,
      i := 256 * clampTo l.outMin l.outMax 0 }
  | .auto => { l with mode := .auto }
  | .manual => { l with mode := .manual }
  | .hold => { l with mode := .hold }

/-- R67, R79: entering OFF, MANUAL or HOLD abandons the web-loss timing and re-arms the loop. -/
def rearmSpan (k : Fin 10) (m : LoopMode) (s : State) : State :=
  match loopSpan k with
  | none => s
  | some t => if m = .auto then s else modifySpan t (fun x => { x with timing := none, armed := true }) s

/-- The loop takes a mode, with the effects of R67 when it differs from the one it has. -/
def takeMode (k : Fin 10) (m : LoopMode) (s : State) : State :=
  if (s.loops.loops[k]).mode = m then s else rearmSpan k m (modifyLoop k (enterMode m) s)

/-- R68 to R70: the loop takes the mode that its base mode, override and stale mark give it. -/
def refreshLoop (s : State) (k : Fin 10) : State :=
  let base := baseMode s k
  let l := s.loops.loops[k]
  match base with
  | .off => takeMode k .off s
  | _ =>
    match l.override with
    | some o => takeMode k o s
    | none => takeMode k (ownMode k base l.stale) s

/-- R74: what holds a zone off. -/
def heldOff (s : State) (z : Fin 6) : Bool :=
  (s.loops.loops[zoneLoop z]).mode == .off || (s.loops.loops[zoneLoop z]).stale ||
    (s.loops.zones[z]).overTemp || s.pins.estop

/-- R74: the pending duty. -/
def pendingDuty (s : State) (z : Fin 6) : Int :=
  if heldOff s z then 0 else (s.loops.loops[zoneLoop z]).u

/-- R74: a zone that is held off has active duty 0 and its pin off for the rest of the window. -/
def holdZone (s : State) (z : Fin 6) : Zone :=
  if heldOff s z then { s.loops.zones[z] with active := 0, heaterOn := false, onTime := none }
  else s.loops.zones[z]

def enforceHold (s : State) : State := { s with loops.zones := tab fun z => holdZone s z }

/-- The loop unit takes every base mode afresh (R68, R69) and the holds that follow (R74). -/
def refreshLoops (s : State) : State := enforceHold ((List.finRange 10).foldl refreshLoop s)

/-! ## Setpoints and limits -/

/-- The fabric profile of the heat lot. -/
def heatFabric (s : State) : Option FabricProfile := s.profiles.heat.map fun l => fabricOf s l.fabric

/-- The fabric profile of the nip lot. -/
def nipFabric (s : State) : Option FabricProfile := s.profiles.nip.map fun l => fabricOf s l.fabric

/-- R66, R96: with no lot the setpoint is 0, also while the heat hold is set (log 40). -/
def setpointOf (s : State) (k : Fin 10) : Int :=
  match loopSpan k with
  | none =>
    match heatFabric s with
    | none => 0
    | some f => if s.line.heatHold then s.loops.standbyTemp else f.tSet
  | some t =>
    match nipFabric s with
    | none => 0
    | some f => f.tension[t]

/-- R11: is the zone in band for the warm-up dwell? -/
def zoneInBand (s : State) (z : Fin 6) : Bool :=
  let c := s.meas.channels[(⟨z.val, by omega⟩ : Fin 16)]
  !c.stale && decide (|c.processed - (s.loops.loops[zoneLoop z]).setpoint| ≤ s.line.readyBand)

/-- R11: the check of the warm-up dwell, at an arrival of channels 0 to 5, at a stale notice and at a
change of a heat setpoint. -/
def checkDwell (s : State) : State :=
  if s.line.mode = .warming then
    if (List.finRange 6).all (zoneInBand s) then
      match s.line.dwell with
      | some _ => s
      | none => { s with line.dwell := some s.line.readyDwell }
    else { s with line.dwell := none }
  else s

/-- R66: the heat loops take the setpoint their source gives; a change is handed to the line unit for
the warm-up dwell. -/
def refreshHeatSetpoints (s : State) : State :=
  let s1 := { s with
    loops.loops := tab fun k =>
      if isHeatLoop k then { s.loops.loops[k] with setpoint := setpointOf s k }
      else s.loops.loops[k] }
  if (List.finRange 6).any
      (fun z => decide ((s.loops.loops[zoneLoop z]).setpoint ≠ (s1.loops.loops[zoneLoop z]).setpoint))
  then checkDwell s1 else s1

/-- R66: the tension loops take the tensions of the nip lot. -/
def refreshTensionSetpoints (s : State) : State :=
  { s with
    loops.loops := tab fun k =>
      if isHeatLoop k then s.loops.loops[k]
      else { s.loops.loops[k] with setpoint := setpointOf s k } }

/-- R75: the target of the relative limits. -/
def limitTarget (s : State) : Option Int := (heatFabric s).map fun f => f.tSet + s.loops.overheatMargin

/-- R75: a rise of the target raises the relative limits at once, and a first-found target sets them. -/
def raiseLimits (s : State) : State :=
  match limitTarget s with
  | none => s
  | some t =>
    { s with loops.zones := tab fun z =>
        match (s.loops.zones[z]).relLimit with
        | none => { s.loops.zones[z] with relLimit := some t }
        | some l => { s.loops.zones[z] with relLimit := some (max l t) } }

/-- R75: at a fresh arrival a fallen target is taken once the zone has come down to it. -/
def lowerLimit (target : Option Int) (processed : Int) (z : Zone) : Zone :=
  match target, z.relLimit with
  | some t, some l => if processed ≤ t ∧ t < l then { z with relLimit := some t } else z
  | _, _ => z

/-- R75: the threshold of a zone. -/
def overThreshold (s : State) (z : Fin 6) : Int :=
  match (s.loops.zones[z]).relLimit with
  | none => s.loops.tAbsMax
  | some l => min l s.loops.tAbsMax

/-! ## Heater windows -/

/-- R72: the on-time of an active duty in a window; absent for a duty of 0 (the pin stays off) and for
1000 (it stays on for the whole window). -/
def onTimeOf (active length : Int) : Option Int :=
  if active ≤ 0 ∨ 1000 ≤ active then none else some (floorQuot (active * length) 1000)

/-- R72, R73: a window starts. -/
def startWindow (s : State) : State :=
  { s with
    loops.windowLength := s.loops.heaterWindow
    loops.zones := tab fun z =>
      { s.loops.zones[z] with
        active := pendingDuty s z
        heaterOn := decide (0 < pendingDuty s z)
        onTime := onTimeOf (pendingDuty s z) s.loops.heaterWindow } }

/-! ## Analog outputs -/

/-- R80. -/
def countsFor (o : AnalogOut) (v : Int) : Int :=
  if o.fullAt = o.zeroAt then o.calLo
  else
    clampTo (min o.calLo o.calHi) (max o.calLo o.calHi)
      (o.calLo + truncQuot ((v - o.zeroAt) * (o.calHi - o.calLo)) (o.fullAt - o.zeroAt))

/-- The present value of an output's source; a source is always a present point (R57, R62). -/
def sourceValue (s : State) (n : Fin 5) : Int :=
  match Point.ofInt (s.loops.outputs[n]).source with
  | some p => readPoint s p
  | none => 0

/-- R81: the counts computed from the source's present value. -/
def recomputeOutput (n : Fin 5) (s : State) : State :=
  modifyOutput n (fun o => { o with counts := countsFor o (sourceValue s n) }) s

/-- R52: does the chain of sources from value v lead to output n? -/
def chainLeadsTo (s : State) (n : Fin 5) : Nat → Int → Bool
  | 0, _ => false
  | fuel + 1, v =>
    match Point.ofInt v with
    | some (.outCounts m) => m == n || chainLeadsTo s n fuel (s.loops.outputs[m]).source
    | _ => false

end Sys2Proof.Machine
end

