-- ==== Sys2Proof/Machine/Line.lean ====
section
/-! DEFINITION. Line motion and line modes (chapter 1): the operations of the line unit, shared by the
line commands, the pins, the timings and the reaction actions. -/

namespace Sys2Proof.Machine

/-! ## Link silence and modes -/

/-- R203, arming: what a change of line mode does to the link-silence timing. -/
def silenceOnMode (old new : LineMode) (s : State) : State :=
  if new = .off then { s with link.silenceArmed := false, link.silence := none }
  else if old = .off ∧ s.link.linkSilence ≠ 0 then
    { s with link.silenceArmed := true, link.silence := some s.link.linkSilence }
  else s

/-- R11: leaving WARMING abandons the dwell timing. -/
def endDwell (s : State) : State := { s with line.dwell := none }

/-- R9: a change of line mode, with its run phase. The loops and the link-silence timing follow, and
MODE_CHANGE is raised with the new mode; it is recorded before the points that follow the mode are handed over
(the model's choice, log 55). -/
def setMode (m : LineMode) (phase : RunPhase) (s : State) : State :=
  let s1 := endDwell (silenceOnMode s.line.mode m { s with line.mode := m, line.phase := phase })
  record .modeChange m.code (refreshLoops s1)

/-- R7: every target is clamped to 0..v_max. -/
def clampTarget (s : State) (t : Int) : Int := clampTo 0 s.line.vMax t

/-- R8, replacement: a mode rule that sets a target ends a ramp in flight, which is reported complete. -/
def replaceRamp (s : State) : State :=
  match s.line.owner with
  | .action => deferOffer (.actionDone .ramp) { s with line.owner := .line }
  | .line => s

/-- R7, R8: a mode rule sets the target with owner LINE. -/
def setLineTarget (t : Int) (source : RateSource) (s : State) : State :=
  let s1 := replaceRamp s
  { s1 with line.target := clampTarget s1 t, line.rateSource := source }

/-- R11, R22: the heat hold is set or cleared, and the heat setpoints follow it. -/
def setHeatHold (hold : Bool) (s : State) : State :=
  refreshHeatSetpoints { s with line.heatHold := hold }

/-! ## The nip -/

/-- R20: the line unit turns NIP off. -/
def nipOff (s : State) : State :=
  if s.line.nip.output then
    { s with line.nip := if s.pins.nipFb then .opening else .opened }
  else s

/-- The level that holds the executor waits on this action: its run stands at it (R167). -/
def runningAction (s : State) : Option Action :=
  match s.react.executor with
  | none => none
  | some w =>
    match (s.react.levels[w]).runPos with
    | none => none
    | some p => (s.react.levels[w]).defn.actions[p - 1]?

/-- R20, R173: the nip has reached OPEN, or was turned on again: a LIFT that waits is complete. -/
def liftDone (s : State) : State :=
  if runningAction s = some .lift then deferOffer (.actionDone .lift) s else s

/-- R13: the run speed of the nip lot as it stands. -/
def nipRunSpeed (s : State) : Int :=
  match nipFabric s with
  | none => 0
  | some f => f.vRun

/-- R8, R14: RAMPING, or STEADY if the target equals the reference. -/
def rampPhase (s : State) : State :=
  { s with line.phase := if s.line.target = s.line.reference then .steady else .ramping }

/-- R13: the engage completes. -/
def engageComplete (s : State) : State :=
  if s.line.mode = .running ∧ s.line.phase = .engaging then
    rampPhase (setLineTarget (nipRunSpeed s) .rampRate s)
  else s

/-- R20: the line unit turns NIP on. -/
def nipOn (s : State) : State :=
  match s.line.nip with
  | .opened =>
    if s.pins.nipFb then engageComplete { s with line.nip := .closed }
    else { s with line.nip := .closing }
  | .opening =>
    let s1 := liftDone s
    if s.pins.nipFb then engageComplete { s1 with line.nip := .closed }
    else { s1 with line.nip := .closing }
  | .closed => engageComplete s
  | .closing => s
  | .lost => { s with line.nip := .closing }

/-! ## Stopping, ramps and the reference -/

/-- R16: the reference has reached 0 in STOPPING. With lift_on_stop 1 the nip lifts after a STOP action too
(R16, R174); the second case of R130 is read as the one with lift_on_stop 0 (the model's choice, log 53). -/
def stoppingComplete (s : State) : State :=
  let s1 := setMode .ready .noPhase { s with line.feed := false }
  if s1.line.liftOnStop = 1 then nipOff s1 else s1

/-- R16: STOP can be taken. -/
def canStop (s : State) : Bool := s.line.mode == .running || s.line.mode == .threading

/-- R16: the mode becomes STOPPING, with target 0 at the stop rate. MODE_CHANGE is recorded before the
completion of a RAMP that the new target replaces is reported (R8): the model's choice, log 46. -/
def beginStop (s : State) : State := setLineTarget 0 .stopRate (setMode .stopping .noPhase s)

/-- R16: a reference already at 0 ends the stop as it is taken. -/
def endStop (s : State) : State :=
  if s.line.mode = .stopping ∧ s.line.reference = 0 then stoppingComplete s else s

/-- R16, R174: the STOP action; in a mode other than RUNNING and THREADING it changes nothing. -/
def stopLine (s : State) : State := if canStop s then endStop (beginStop s) else s

/-- R8, completion: the reference has reached a target owned by ACTION. -/
def ownedRampReached (s : State) : State :=
  match s.line.owner with
  | .action => deferOffer (.actionDone .ramp) { s with line.owner := .line }
  | .line => s

/-- R7: the reference reaches its target: run phases, STOPPING and an owned ramp end. -/
def targetReached (s : State) : State :=
  let s1 := ownedRampReached s
  match s1.line.mode with
  | .running =>
    if s1.line.phase = .ramping then { s1 with line.phase := .steady } else s1
  | .stopping => if s1.line.reference = 0 then stoppingComplete s1 else s1
  | .off | .warming | .ready | .threading | .safe => s1

/-- R7: the size of a step. -/
def rateOf (l : LineUnit) : Int :=
  match l.rateSource with
  | .rampRate => l.rampRate
  | .stopRate => l.stopRate
  | .action r => r

/-- R7: the reference after a step. -/
def steppedReference (l : LineUnit) : Int :=
  if l.reference < l.target then min (l.reference + rateOf l) l.target
  else max (l.reference - rateOf l) l.target

/-- R7: the step of the reference; the loops follow it (R69). -/
def stepReference (s : State) : State :=
  if s.line.reference = s.line.target then s
  else
    let s1 := refreshLoops { s with line.reference := steppedReference s.line }
    if s1.line.reference = s1.line.target then targetReached s1 else s1

/-- R5: the measured speed; a value that no signed 32-bit point can hold is free (log 7). -/
def speedOf (delta countsPerMm : Int) : Int :=
  let v := floorQuot (delta * 100) countsPerMm
  if fits32 v then v else (Config.field32Outside v).toInt

/-- R5: the measurement of the speed. -/
def measureSpeed (s : State) : State :=
  { s with
    line.speed := speedOf (s.line.count - s.line.sample) s.line.countsPerMm
    line.sample := s.line.count }

/-- R3: the count after a movement; a count beyond 64 bits is free (log 6). -/
def movedCount (count delta : Int) : Int :=
  if fits64 (count + delta) then count + delta else (Config.countOutside (count + delta)).toInt

/-- R3: the position derived from the count. -/
def derivedPosition (l : LineUnit) : Int := clamp32 (floorQuot l.count l.countsPerMm)

/-! ## What the reaction actions ask of the line unit -/

/-- R8, R172: may a RAMP take effect? -/
def rampTakesEffect (s : State) : Bool :=
  match s.line.mode with
  | .running => s.line.phase == .ramping || s.line.phase == .steady
  | .threading => true
  | .off | .warming | .ready | .stopping | .safe => false

/-- R8: a RAMP action. It is complete at once where it takes no effect or finds the clamped target
equal to the reference; it waits when the owner is ACTION afterwards. -/
def startRamp (t rate : Int) (s : State) : State :=
  if rampTakesEffect s then
    let s1 := { s with
      line.target := clampTarget s t
      line.rateSource := .action rate
      line.owner := if clampTarget s t = s.line.reference then .line else .action }
    if s1.line.mode = .running then rampPhase s1 else s1
  else s

/-- R8, abandonment: the reference stops where it stands. -/
def abandonRamp (s : State) : State :=
  match s.line.owner with
  | .action =>
    { s with
      line.target := s.line.reference
      line.owner := .line
      line.phase := if s.line.mode = .running then .steady else s.line.phase }
  | .line => s

/-- R20, R173: the LIFT action turns NIP off; in ENGAGING it ends the engage and returns to READY. The rate
source is then RAMP_RATE (the model's choice, log 37). -/
def liftNip (s : State) : State :=
  let s1 := nipOff s
  if s1.line.mode = .running ∧ s1.line.phase = .engaging then
    setMode .ready .noPhase (setLineTarget 0 .rampRate { s1 with line.feed := false })
  else s1

/-- R17: entry into SAFE from another mode, less what it does to the reaction levels (R176). A replaced
RAMP is reported complete (R8) before MODE_CHANGE is recorded (the model's choice, log 46). -/
def safeLine (s : State) : State :=
  let s1 := replaceRamp s
  let s2 := { s1 with
    line.target := 0, line.reference := 0, line.feed := false, line.beacon := true }
  nipOff (setMode .safe .noPhase s2)

/-- R21: the engage timing expires in CLOSING: NIP_FAULT, and the nip is OPEN. -/
def engageExpired (s : State) : State := { record .nipFault 0 s with line.nip := .opened }

/-- R21, R13: after the NIP_FAULT of a failed engage the line returns to READY. The rate source is then
RAMP_RATE (the model's choice, log 37). -/
def failedEngage (s : State) : State :=
  if s.line.mode = .running ∧ s.line.phase = .engaging then
    setMode .ready .noPhase (setLineTarget 0 .rampRate { s with line.feed := false })
  else s

end Sys2Proof.Machine
end

