-- ==== Sys2Proof/Machine/Settings.lean ====
section
/-! DEFINITION. Writes of points (R48 to R52, R55, R58, R70, R71, R45). -/

namespace Sys2Proof.Machine

/-- What a write of a point answers, and the state it leaves. -/
structure WriteResult where
  state : State
  status : Status

/-- Table 3-3: the plain range of a SETTING or GUARDED point (two bounds). The points with conditions
(R52) are written by rules of their own. -/
def plainRange : Point → Int × Int
  | .countsPerMm => (1, 1000)
  | .pIn => (2000, 20000)
  | .lWrap => (500, 3000)
  | .pExitMargin => (0, 5000)
  | .heatLead => (0, 5000)
  | .rampRate => (1, 200)
  | .stopRate => (1, 500)
  | .vMax => (50, 2000)
  | .vThread => (10, 200)
  | .liftOnStop => (0, 1)
  | .readyBand => (5, 200)
  | .readyDwell => (1, 600)
  | .overheatMargin => (50, 500)
  | .tAbsMax => (1500, 2600)
  | .standbyTemp => (500, 2300)
  | .doseTol => (0, 1024)
  | .gMin => (2048, 4096)
  | .gMax => (4096, 8192)
  | .trim _ => (-2048, 2047)
  | .avgN _ => (1, 64)
  | .avgWindow _ => (0, 1000000)
  | .captureBand _ => (0, 255)
  | .motionBand _ => (0, 100000)
  | .aperture _ => (0, 100000)
  | .loopKp _ => (0, 65535)
  | .loopKi _ => (0, 65535)
  | .lossThreshold _ => (0, 30000)
  | .lossTime _ => (50, 5000)
  | .outCalLo _ => (0, 65535)
  | .outCalHi _ => (0, 65535)
  | _ => (int32Min, int32Max)

/-- The owner's state with a plain setting stored, and what the owner's rule makes follow at once:
the count and sample of R4, the relative limits of R75, the setpoints of R66, the output counts of R81. A
write of counts_per_mm keeps the position last published and drops the edges since (log 38). -/
def storePlain (p : Point) (v : Int) (s : State) : State :=
  match p with
  | .countsPerMm =>
    if v = s.line.countsPerMm then s
    else { s with
      line.countsPerMm := v
      line.count := s.line.position * v
      line.sample := s.line.position * v }
  | .pIn => { s with line.pIn := v }
  | .lWrap => { s with line.lWrap := v }
  | .pExitMargin => { s with line.pExitMargin := v }
  | .heatLead => { s with line.heatLead := v }
  | .rampRate => { s with line.rampRate := v }
  | .stopRate => { s with line.stopRate := v }
  | .vMax => { s with line.vMax := v }
  | .vThread => { s with line.vThread := v }
  | .liftOnStop => { s with line.liftOnStop := v }
  | .readyBand => { s with line.readyBand := v }
  | .readyDwell => { s with line.readyDwell := v }
  | .overheatMargin => raiseLimits { s with loops.overheatMargin := v }
  | .tAbsMax => { s with loops.tAbsMax := v }
  | .standbyTemp =>
    if s.line.heatHold then refreshHeatSetpoints { s with loops.standbyTemp := v }
    else { s with loops.standbyTemp := v }
  | .doseTol => { s with bands.doseTol := v }
  | .gMin => { s with engine.gMin := v }
  | .gMax => { s with engine.gMax := v }
  | .trim c => modifyChannel c (fun x => { x with trim := v }) s
  | .scale c => modifyChannel c (fun x => { x with scale := v }) s
  | .offset c => modifyChannel c (fun x => { x with offset := v }) s
  | .avgN c => modifyChannel c (fun x => { x with avgN := v }) s
  | .avgWindow c => modifyChannel c (fun x => { x with avgWindow := v }) s
  | .captureBand f => modifyChannel (forceChannel f) (fun x => { x with captureBand := v }) s
  | .motionBand f => modifyChannel (forceChannel f) (fun x => { x with motionBand := v }) s
  | .aperture f => modifyChannel (forceChannel f) (fun x => { x with aperture := v }) s
  | .loopKp k => modifyLoop k (fun x => { x with kp := v }) s
  | .loopKi k => modifyLoop k (fun x => { x with ki := v }) s
  | .lossThreshold t => modifySpan t (fun x => { x with lossThreshold := v }) s
  | .lossTime t => modifySpan t (fun x => { x with lossTime := v }) s
  | .outZero n => recomputeOutput n (modifyOutput n (fun x => { x with zeroAt := v }) s)
  | .outFull n => recomputeOutput n (modifyOutput n (fun x => { x with fullAt := v }) s)
  | .outCalLo n => recomputeOutput n (modifyOutput n (fun x => { x with calLo := v }) s)
  | .outCalHi n => recomputeOutput n (modifyOutput n (fun x => { x with calHi := v }) s)
  | .user u => { s with user := upd s.user u v }
  | _ => s

/-- R49: OK when the value is stored as written, CLAMPED when it had to be moved. -/
def clampStatus (written stored : Int) : Status := if stored = written then .ok else .clamped

/-- R49 for a plain setting. -/
def writePlain (p : Point) (v : Int) (s : State) : WriteResult :=
  let stored := clampTo (plainRange p).1 (plainRange p).2 v
  ⟨storePlain p stored s, clampStatus v stored⟩

/-- R52, link_silence. -/
def linkSilenceValue (v : Int) : Int :=
  if v ≤ 0 then 0 else if v < 500 then 500 else if 60000 < v then 60000 else v

/-- R203: the effect of a taken write of link_silence on the timing. -/
def silenceOnWrite (old new : Int) (s : State) : State :=
  if new = 0 then { s with link.silenceArmed := false, link.silence := none }
  else if s.line.mode ≠ .off ∧ old = 0 then { s with link.silenceArmed := true }
  else s

def writeLinkSilence (v : Int) (s : State) : WriteResult :=
  let stored := linkSilenceValue v
  ⟨silenceOnWrite s.link.linkSilence stored { s with link.linkSilence := stored },
    clampStatus v stored⟩

/-- R52, heater_window: clamped to 500..10000, then reduced to a multiple of 100. -/
def heaterWindowValue (v : Int) : Int := floorQuot (clampTo 500 10000 v) 100 * 100

def writeHeaterWindow (v : Int) (s : State) : WriteResult :=
  let stored := heaterWindowValue v
  ⟨{ s with loops.heaterWindow := stored }, clampStatus v stored⟩

/-- R52: the fixed range of out_min and out_max. -/
def boundRange (k : Fin 10) : Int × Int := if isHeatLoop k then (0, 1000) else (-200, 200)

/-- R52: the output and the integrator are clamped to the bounds. -/
def reclampLoop (l : LoopRec) : LoopRec :=
  { l with
    u := clampTo l.outMin l.outMax l.u
    i := clampTo (256 * l.outMin) (256 * l.outMax) l.i }

/-- R52: out_min may not exceed the present out_max. -/
def writeOutMin (k : Fin 10) (v : Int) (s : State) : WriteResult :=
  let stored := min (clampTo (boundRange k).1 (boundRange k).2 v) (s.loops.loops[k]).outMax
  ⟨modifyLoop k (fun l => reclampLoop { l with outMin := stored }) s, clampStatus v stored⟩

/-- R52: out_max may not fall below the present out_min. -/
def writeOutMax (k : Fin 10) (v : Int) (s : State) : WriteResult :=
  let stored := max (clampTo (boundRange k).1 (boundRange k).2 v) (s.loops.loops[k]).outMin
  ⟨modifyLoop k (fun l => reclampLoop { l with outMax := stored }) s, clampStatus v stored⟩

/-- R71: a write of a loop output is taken in MANUAL alone. -/
def writeLoopOutput (k : Fin 10) (v : Int) (s : State) : WriteResult :=
  let l := s.loops.loops[k]
  if l.mode = .manual then
    let stored := clampTo l.outMin l.outMax v
    ⟨modifyLoop k (fun x => { x with u := stored }) s, clampStatus v stored⟩
  else ⟨s, .mode⟩

/-- R70: a write of a loop mode, judged against the base mode. -/
def writeLoopMode (k : Fin 10) (v : Int) (s : State) : WriteResult :=
  let stored := clampTo 0 3 v
  let m := LoopMode.ofInt stored
  let base := baseMode s k
  if m = base then
    ⟨enforceHold (refreshLoop (modifyLoop k (fun l => { l with override := none }) s) k),
      clampStatus v stored⟩
  else if (m = .manual ∨ m = .hold) ∧ base ≠ .off then
    ⟨enforceHold (refreshLoop (modifyLoop k (fun l => { l with override := some m }) s) k),
      clampStatus v stored⟩
  else ⟨s, .mode⟩

/-- R52, R57: an analog output source. -/
def writeOutSource (n : Fin 5) (v : Int) (s : State) : WriteResult :=
  if (Point.ofInt v).isNone || chainLeadsTo s n 6 v then ⟨s, .range⟩
  else ⟨recomputeOutput n (modifyOutput n (fun o => { o with source := v }) s), .ok⟩

/-- R49, R52: a write of a SETTING point, or of a GUARDED point in OFF. -/
def settingWrite (p : Point) (v : Int) (s : State) : WriteResult :=
  match p with
  | .linkSilence => writeLinkSilence v s
  | .heaterWindow => writeHeaterWindow v s
  | .loopOutMin k => writeOutMin k v s
  | .loopOutMax k => writeOutMax k v s
  | .loopOutput k => writeLoopOutput k v s
  | .loopMode k => writeLoopMode k v s
  | .outSource n => writeOutSource n v s
  | p => writePlain p v s

/-- R45: the scaled value that a forced processed value is carried back to. -/
def backScaled (force : Bool) (c : Channel) (p : Int) : Int :=
  if force then p + c.zeroCorr else p

/-- R45: the raw value, before its clamp. -/
def backRaw (c : Channel) (scaled : Int) : Int :=
  if c.scale = 0 then 0 else roundHalfUp ((scaled - c.offset) * 65536) c.scale - c.trim

/-- Is the channel of the FORCE kind (Table 2-1)? -/
def isForceChannel (c : Fin 16) : Bool := 6 ≤ c.val && c.val ≤ 9

/-- R45: a write of PROCESSED of a FORCED channel. -/
def writeForcedProcessed (c : Fin 16) (v : Int) (s : State) : WriteResult :=
  let ch := s.meas.channels[c]
  let wideScaled := backScaled (isForceChannel c) ch v
  let scaled := clamp32 wideScaled
  let wideRaw := backRaw ch scaled
  let raw := clampTo 0 65535 wideRaw
  ⟨modifyChannel c (fun x => { x with processed := v, scaled := scaled, raw := raw }) s,
    if scaled = wideScaled ∧ raw = wideRaw then .ok else .clamped⟩

/-- R45, R51: a write of a FORCEABLE point. -/
def writeForceable (p : Point) (v : Int) (s : State) : WriteResult :=
  match p with
  | .chanRaw c =>
    if (s.meas.channels[c]).mode = .forced then
      ⟨modifyChannel c (fun x => { x with raw := clampTo 0 65535 v }) s,
        clampStatus v (clampTo 0 65535 v)⟩
    else ⟨s, .readOnly⟩
  | .chanScaled c =>
    if (s.meas.channels[c]).mode = .forced then
      ⟨modifyChannel c (fun x => { x with scaled := v }) s, .ok⟩
    else ⟨s, .readOnly⟩
  | .chanProcessed c =>
    if (s.meas.channels[c]).mode = .forced then writeForcedProcessed c v s else ⟨s, .readOnly⟩
  | _ => ⟨s, .readOnly⟩

/-- R47 to R51: one pair of a POINT_WRITE, judged on its own. -/
def writeByNumber (n : Nat) (v : Int) (s : State) : WriteResult :=
  match Point.ofNumber n with
  | none => ⟨s, .noSuch⟩
  | some p =>
    match p.cls with
    | .live => ⟨s, .readOnly⟩
    | .setting => settingWrite p v s
    | .guarded => if s.line.mode = .off then settingWrite p v s else ⟨s, .mode⟩
    | .forceable => writeForceable p v s

/-- Does a write of this point move the places that the lots are found against (R93)? -/
def movesLots (p : Point) : Bool :=
  match p with
  | .pIn | .lWrap | .pExitMargin | .heatLead => true
  | _ => false

end Sys2Proof.Machine
end

