-- ==== Sys2Proof/Machine/HandOver.lean ====
section
/-! DEFINITION. The hand-over of changed points to the analog outputs and the watches (R56, R81,
R161): an owner's event is compared, before and after, at each source. -/

namespace Sys2Proof.Machine

/-- R56: is the point handed over, by a change of its value or because it is one of the four points of a
channel that has an arrival? -/
def handedOver (old new : State) (arrival : Option (Fin 16)) (p : Point) : Bool :=
  (match arrival, p with
   | some c, .chanRaw d => c == d
   | some c, .chanScaled d => c == d
   | some c, .chanProcessed d => c == d
   | some c, .chanStatus d => c == d
   | _, _ => false) || decide (readPoint old p ≠ readPoint new p)

/-- R81: an output whose source is handed over computes its counts afresh. -/
def handToOutput (old : State) (arrival : Option (Fin 16)) (new : State) (n : Fin 5) : State :=
  match Point.ofInt (new.loops.outputs[n]).source with
  | none => new
  | some p => if handedOver old new arrival p then recomputeOutput n new else new

/-- One pass over the five outputs. -/
def handToOutputs (old : State) (arrival : Option (Fin 16)) (new : State) : State :=
  (List.finRange 5).foldl (handToOutput old arrival) new

/-- Outputs follow other outputs through their counts points in a chain of five at most (R52). -/
def settleOutputs (old : State) (arrival : Option (Fin 16)) : Nat → State → State
  | 0, s => s
  | n + 1, s => settleOutputs old arrival n (handToOutputs old arrival s)

/-- Table 9-1. -/
def WatchDef.holds (d : WatchDef) (v : Int) : Bool :=
  match d.cond with
  | .off => false
  | .above => decide (d.hi < v)
  | .below => decide (v < d.lo)
  | .outside => decide (v < d.lo) || decide (d.hi < v)
  | .inside => decide (d.lo ≤ v) && decide (v ≤ d.hi)

/-- R161: the state of a watch after it has judged a value. -/
def Watch.judged (w : Watch) (v : Int) : WatchState :=
  match w.state, w.defn.holds v with
  | .clear, true => if 0 < w.defn.persist then .timing else .tripped
  | .clear, false => .clear
  | .timing, true => .timing
  | .timing, false => .clear
  | .tripped, true => .tripped
  | .tripped, false => .clear

/-- R161: a watch is handed a value; an entry into TRIPPED is offered to the levels after the step. -/
def judgeWatch (w : Fin 16) (v : Int) (s : State) : State :=
  let x := s.react.watches[w]
  let s1 := modifyWatch w (fun y => { y with state := y.judged v }) s
  if x.judged v = .tripped ∧ x.state ≠ .tripped then deferOffer (.trip w) s1 else s1

def handToWatch (old new : State) (arrival : Option (Fin 16)) (s : State) (w : Fin 16) : State :=
  match Point.ofNumber (s.react.watches[w]).defn.source with
  | none => s
  | some p => if handedOver old new arrival p then judgeWatch w (readPoint new p) s else s

/-- R56: the hand-over after an owner's event that led from `old` to `new`; `arrival` names a channel
whose four points are handed over whether or not they changed. -/
def publishArrival (arrival : Option (Fin 16)) (old new : State) : State :=
  let s := settleOutputs old arrival 5 new
  (List.finRange 16).foldl (handToWatch old s arrival) s

def publish (old new : State) : State := publishArrival none old new

end Sys2Proof.Machine
end

