-- ==== Sys2Proof/Machine/Reactions.lean ====
section
/-! DEFINITION. Reaction levels, the executor and the actions (chapter 9), and `commit`: an owner's event
followed by its hand-over and by the trigger offers it left. -/

namespace Sys2Proof.Machine

/-! ## Levels -/

/-- Table 9-2. -/
inductive LevelState where
  | dormant | posted | armed | waiting | running
  deriving DecidableEq, Repr

def LevelState.code : LevelState → Nat
  | .dormant => 0 | .posted => 1 | .armed => 2 | .waiting => 3 | .running => 4

/-- R164, Table 9-2. -/
def levelState (s : State) (l : Fin 16) : LevelState :=
  let x := s.react.levels[l]
  if s.react.executor = some l then .running
  else if x.defn.enable then
    if x.pending || x.runPos.isSome then .waiting else .armed
  else if x.pending then .posted else .dormant

/-- R165: does this occurrence trigger the level? Level 0 has its three fixed kinds beside the
trigger of its record. -/
def triggeredByEvent (s : State) (k : EventKind) (l : Fin 16) : Bool :=
  (s.react.levels[l]).defn.trigger == .event k ||
    (l.val == 0 && (k == .estop || k == .guard || k == .linkSilent))

/-- R165: does a trip of this watch trigger the level? -/
def triggeredByWatch (s : State) (w : Fin 16) (l : Fin 16) : Bool :=
  (s.react.levels[l]).defn.trigger == .watch w

/-- R165: one offer sets pending on every level it names, before the auction that follows. -/
def setPending (named : Fin 16 → Bool) (cause : Cause) (s : State) : State :=
  { s with
    react.levels := tab fun l =>
      if named l then { s.react.levels[l] with pending := true, cause := some cause }
      else s.react.levels[l] }

/-! ## Actions -/

/-- R58, R171: a SET or COPY writes a SETTING point; a refusal by the owner is not reported. -/
def writeAsReaction (dest : Nat) (v : Int) (s : State) : State :=
  match Point.ofNumber dest with
  | none => s
  | some p =>
    match p.cls with
    | .setting => (settingWrite p v s).state
    | .live | .guarded | .forceable => s

/-- R171: the value of a COPY's source when the action starts. -/
def copySource (s : State) (source : Nat) : Int :=
  match Point.ofNumber source with
  | some p => readPoint s p
  | none => 0

/-- R176: at an entry into SAFE the work of levels 1 to 15 ends. -/
def endLevelWork (s : State) : State :=
  { s with
    react.levels := tab fun l =>
      if l.val = 0 then s.react.levels[l]
      else { s.react.levels[l] with pending := false, cause := none, runPos := none, runCause := none } }

/-- R17, R176. -/
def safeAction (s : State) : State :=
  if s.line.mode = .safe then s else endLevelWork (safeLine s)

/-- R175. -/
def reportAction (w : Fin 16) (s : State) : State :=
  offerReport (.reaction w (s.react.levels[w]).runCause s.line.position s.line.mode) s

/-- R171 to R176: what starting an action does. -/
def startAction (w : Fin 16) (a : Action) (s : State) : State :=
  match a with
  | .set dest v => writeAsReaction dest v s
  | .copy dest source => writeAsReaction dest (copySource s source) s
  | .ramp t r => startRamp t r s
  | .lift => liftNip s
  | .stop => stopLine s
  | .holdHeat => setHeatHold true s
  | .beacon => { s with line.beacon := true }
  | .report => reportAction w s
  | .safe => safeAction s

/-- R172, R173: does the action, just started, wait? -/
def actionWaits (a : Action) (s : State) : Bool :=
  match a with
  | .ramp _ _ => s.line.owner == .action
  | .lift => s.line.nip != .opened
  | _ => false

/-! ## The executor -/

/-- R167: the run goes on to its next action. -/
def advanceRun (w : Fin 16) (s : State) : State :=
  modifyLevel w (fun l => { l with runPos := l.runPos.map (· + 1) }) s

/-- R169: the run completes. -/
def completeRun (w : Fin 16) (s : State) : State :=
  let s1 := modifyLevel w (fun l => { l with runPos := none, runCause := none }) s
  record .levelDone w.val { s1 with react.executor := none }

/-- R167: the actions from the run position on, until one waits or the list is done. -/
def workRun : Nat → Fin 16 → State → State
  | 0, _, s => s
  | n + 1, w, s =>
    match (s.react.levels[w]).runPos with
    | none => s
    | some p =>
      match (s.react.levels[w]).defn.actions[p - 1]? with
      | none => completeRun w s
      | some a =>
        let s1 := publish s (startAction w a s)
        if actionWaits a s1 then s1 else workRun n w (advanceRun w s1)

/-- The four actions of a list and its end. -/
def runFuel : Nat := 5

/-- R168: a completion report of an abandoned action reaches no level (R170). -/
def dropReports (s : State) : State :=
  { s with react.deferred := s.react.deferred.filter fun d =>
      match d with
      | .actionDone _ => false
      | .trip _ => true
      | .occurrence _ _ => true
      | .toRaise _ _ => true }

/-- R168 step 1: the action that the level waits on is abandoned. -/
def abandonAction (s : State) : State :=
  match runningAction s with
  | some (.ramp _ _) => dropReports (abandonRamp s)
  | _ => dropReports s

/-- R168: the level that holds the executor is suspended, and the executor becomes free. -/
def suspend (s : State) : State :=
  let s1 := abandonAction s
  publish s { s1 with react.executor := none }

/-- R167: the executor is awarded; a new run begins, or the suspended one resumes. -/
def award (w : Fin 16) (s : State) : State :=
  let s1 := modifyLevel w (fun l =>
    match l.runPos with
    | none => { l with pending := false, runCause := l.cause, runPos := some 1 }
    | some _ => l) s
  { s1 with react.executor := some w }

/-- R166: a WAITING level that the lock does not bar. -/
def isCandidate (s : State) (l : Fin 16) : Bool :=
  levelState s l == .waiting && (!s.react.lock || l.val == 0)

/-- R166: the candidate with the lowest number. -/
def auctionWinner (s : State) : Option (Fin 16) := (List.finRange 16).find? (isCandidate s)

/-- R166: the winner is awarded a free executor, or one held by a level it outranks. -/
def outranksHolder (s : State) (w : Fin 16) : Bool :=
  match s.react.executor with
  | none => true
  | some m => decide (w.val < m.val)

/-- The executor is vacated by a suspension, if a level holds it. -/
def vacate (s : State) : State :=
  match s.react.executor with
  | none => s
  | some _ => suspend s

/-- R166, R169 step 5: auctions are held until one changes nothing. Each award ends a level's claim,
so the sixteen levels need fewer rounds than the fuel. -/
def holdAuctions : Nat → State → State
  | 0, s => s
  | n + 1, s =>
    match auctionWinner s with
    | none => s
    | some w =>
      if outranksHolder s w then holdAuctions n (workRun runFuel w (award w (vacate s))) else s

/-- More rounds than sixteen levels, each resumed once and run once more, can need. -/
def auctionFuel : Nat := 40

def auction (s : State) : State := holdAuctions auctionFuel s

/-! ## Trigger offers -/

/-- Is this the action that the report completes? -/
def completes (d : WaitKind) (a : Action) : Bool :=
  match d, a with
  | .ramp, .ramp _ _ => true
  | .lift, .lift => true
  | _, _ => false

/-- R167, R170: the line unit's report reaches the level that waits on the action, or no level. -/
def takeActionDone (d : WaitKind) (s : State) : State :=
  match s.react.executor, runningAction s with
  | some w, some a =>
    if completes d a then auction (workRun runFuel w (advanceRun w s)) else s
  | _, _ => s

/-- R182: an occurrence raised in its turn is taken whole: its own offer comes before those that wait. -/
def recordFirst (k : EventKind) (detail : Nat) (s : State) : State :=
  let t := record k detail { s with react.deferred := [] }
  { t with react.deferred := t.react.deferred ++ s.react.deferred }

/-- R161, R165, R182 step 4: one offer is taken, with the auction that follows it. A trip raises
WATCH_TRIP once it has been offered. -/
def takeOffer (d : Deferred) (s : State) : State :=
  match d with
  | .trip w => recordFirst .watchTrip w.val (auction (setPending (triggeredByWatch s w) (.watch w) s))
  | .toRaise k detail => recordFirst k detail s
  | .occurrence k detail => auction (setPending (triggeredByEvent s k) (.event k detail) s)
  | .actionDone a => takeActionDone a s

/-- The offers are taken oldest first, until none waits or `n` have been taken. -/
def takeOffers : Nat → State → State
  | 0, s => s
  | n + 1, s =>
    match s.react.deferred with
    | [] => s
    | d :: rest => takeOffers n (takeOffer d { s with react.deferred := rest })

/-- As `takeOffers`, but no further than to the state `seen`: a cascade that comes back to it has no end. -/
def takeOffersUntil (seen : State) : Nat → State → State
  | 0, s => s
  | n + 1, s =>
    match s.react.deferred with
    | [] => s
    | d :: rest =>
      let t := takeOffer d { s with react.deferred := rest }
      if t = seen then t else takeOffersUntil seen n t

/-- A long cascade is taken until no offer waits, or until it comes back to a state of its own: one round
watches for the state at its start, and the next is twice as long (log 10). -/
def takeCascade : Nat → Nat → State → State
  | 0, _, s => s
  | r + 1, n, s =>
    let t := takeOffersUntil s n s
    if t.react.deferred = [] ∨ t = s then t else takeCascade r (2 * n) t

/-- The reaction unit's part of a step: the offers that the step left are taken, with those that they bring
about, until none waits (R167, R182). Only a cascade without end leaves offers (R169; log 10). -/
def settle (s : State) : State :=
  let t := takeOffers Config.offersAtOnce s
  match t.react.deferred with
  | [] => t
  | _ :: _ => takeCascade Config.cascadeRounds Config.offersAtOnce t

/-- An owner's event from `old` to `new`: the changed points are handed over (R56), and the offers it
left are taken (R182). -/
def commit (old new : State) : State := settle (publish old new)

/-- As `commit`, for an event that is an arrival of a channel (R37, R56). -/
def commitArrival (c : Fin 16) (old new : State) : State := settle (publishArrival (some c) old new)

/-- R182: an occurrence is raised and taken whole, its trigger offer included. -/
def raiseEvent (k : EventKind) (detail : Nat) (s : State) : State := settle (record k detail s)

end Sys2Proof.Machine
end

