-- ==== Sys2Proof/Machine/Lots.lean ====
section
/-! DEFINITION. Fabric lots and profiles (chapter 5): how the heat lot and the nip lot are found, and
the in-use rule. -/

namespace Sys2Proof.Machine

/-- R103: the lead distance of a started band. -/
def leadDistance (s : State) (b : Band) : Option Int := b.start.map fun p => s.line.position - p

/-- R103: the midpoint distance of a started band. -/
def midDistance (s : State) (b : Band) : Option Int :=
  (leadDistance s b).map fun d => d - floorQuot b.length 2

/-- R93: a started band that has not reached P_exit and has reached the place. -/
def countsAt (s : State) (place : Int) (b : Band) : Bool :=
  match midDistance s b with
  | none => false
  | some d => decide (d < s.line.pExit) && decide (place ≤ d)

/-- R93: the newest counting band at or past a place. -/
def newestAt (s : State) (place : Int) : Option Band := s.bands.queue.reverse.find? (countsAt s place)

def Band.lot (b : Band) : Lot := ⟨b.lotSeq, b.fabric⟩

/-- R93: the lot at a place and the band it is the lot of (0: it falls back on the current lot). -/
def lotAt (s : State) (place : Int) : Option Lot × Nat :=
  match newestAt s place with
  | some b => (some b.lot, b.id)
  | none => (s.profiles.current, 0)

/-- R93. -/
def heatPlace (s : State) : Int := s.line.pIn - s.line.heatLead

/-- R94: an event is raised, by the way that `raising` gives, for a place that ends with a lot. The
occurrence is recorded before the points of the lot and its setpoints are handed over (the model's choice,
log 50). -/
def lotEvent (raising : EventKind → Nat → State → State) (k : EventKind) (lot : Option Lot) (band : Nat)
    (s : State) : State :=
  match lot with
  | none => s
  | some _ => raising k band s

/-- R54: an occurrence of a request that lets none come between its pairs is raised when it ends. -/
def raiseLater (k : EventKind) (detail : Nat) (s : State) : State := deferOffer (.toRaise k detail) s

/-- R94, R95: the heat lot is found; a changed one is handed to the loop unit. -/
def findHeatLotBy (raising : EventKind → Nat → State → State) (s : State) : State :=
  let found := lotAt s (heatPlace s)
  if found.1 = s.profiles.heat then s
  else
    lotEvent raising .lotAtHeat found.1 found.2
      (raiseLimits (refreshHeatSetpoints { s with profiles.heat := found.1 }))

/-- R14: a new nip lot in RUNNING with phase RAMPING or STEADY, when its run speed differs. -/
def nipLotAtLine (old new : Option Lot) (s : State) : State :=
  let oldRun := old.map fun l => (fabricOf s l.fabric).vRun
  let newRun := new.map fun l => (fabricOf s l.fabric).vRun
  match newRun with
  | none => s
  | some v =>
    if s.line.mode = .running ∧ (s.line.phase = .ramping ∨ s.line.phase = .steady) ∧
        oldRun ≠ some v then
      rampPhase (setLineTarget v .rampRate s)
    else s

/-- R94, R95: the nip lot is found; a changed one is handed to the loop unit and the line unit. A RAMP that
the new run speed replaces is reported complete (R8) before LOT_AT_NIP is raised (the model's choice, log
46). -/
def findNipLotBy (raising : EventKind → Nat → State → State) (s : State) : State :=
  let found := lotAt s s.line.pIn
  if found.1 = s.profiles.nip then s
  else
    lotEvent raising .lotAtNip found.1 found.2
      (nipLotAtLine s.profiles.nip found.1
        (refreshTensionSetpoints { s with profiles.nip := found.1 }))

/-- R94: the heat lot is found, and LOT_AT_HEAT raised. -/
def findHeatLot (s : State) : State := findHeatLotBy record s

/-- R94: the nip lot is found, and LOT_AT_NIP raised. -/
def findNipLot (s : State) : State := findNipLotBy record s

/-- R93, R94: both lots are found afresh, LOT_AT_HEAT taken whole before LOT_AT_NIP. The levels that
LOT_AT_HEAT triggers run before the nip lot is found, changed and handed over (the model's choice, log 50). -/
def findLots (s : State) : State :=
  let s1 := commit s (findHeatLot s)
  commit s1 (findNipLot s1)

/-- As `findLots`, inside a request that lets no event come between its pairs (R54): each event is raised,
and taken whole, when the request ends (log 33). -/
def findLotsWithin (s : State) : State :=
  let s1 := publish s (findHeatLotBy raiseLater s)
  publish s1 (findNipLotBy raiseLater s1)

/-- R87: how many queued bands name a colour slot. -/
def colourUses (s : State) (slot : Fin 16) : Nat :=
  (s.bands.queue.filter fun b => b.colour == slot).length

/-- R87: how many queued bands name a fabric slot. -/
def fabricUses (s : State) (slot : Fin 8) : Nat :=
  (s.bands.queue.filter fun b => b.fabric == slot).length

/-- R87: is the slot the fabric profile of this lot place? -/
def lotNames (lot : Option Lot) (slot : Fin 8) : Bool :=
  match lot with
  | none => false
  | some l => l.fabric == slot

def colourInUse (s : State) (slot : Fin 16) : Bool := 0 < colourUses s slot

def fabricInUse (s : State) (slot : Fin 8) : Bool :=
  0 < fabricUses s slot || lotNames s.profiles.current slot || lotNames s.profiles.heat slot ||
    lotNames s.profiles.nip slot

/-! ## Clamping of records (R86, R97) -/

/-- R97: a character code outside 0x20..0x7E becomes a space. -/
def cleanChar (b : Byte) : Byte := if 0x20 ≤ b.toNat ∧ b.toNat ≤ 0x7E then b else 0x20

/-- R86, Table 5-1: each field clamped on its own. -/
def clampColour (p : ColourProfile) : ColourProfile :=
  { p with
    tFloor := clampTo 1000 2000 p.tFloor
    dLo := clampTo 0 8000000 p.dLo
    step := clampTo 1 1000000 p.step
    yRef := tab fun i => clampTo 1 1000 p.yRef[i]
    bMax := tab fun i => clampTo 0 4096 p.bMax[i]
    nodes := tab fun i => tab fun k => clampTo 0 1000 (p.nodes[i])[k] }

/-- R86, Table 5-2. -/
def clampFabric (p : FabricProfile) : FabricProfile :=
  { p with
    tSet := clampTo 1200 2300 p.tSet
    vRun := clampTo 50 1200 p.vRun
    tension := tab fun t => clampTo 0 30000 p.tension[t]
    lTotal := clampTo 4096 24576 p.lTotal
    dScorch := clampTo 1 8388607 p.dScorch }

/-- R97: a record as it is taken from an image. A name of more than 16 characters keeps its first 16 (the
model's choice, log 51). -/
def loadColour (p : ColourProfile) : ColourProfile :=
  { clampColour p with name := (p.name.take 16).map cleanChar }

/-- R97: as `loadColour`, for a fabric record (log 51). -/
def loadFabric (p : FabricProfile) : FabricProfile :=
  { clampFabric p with name := (p.name.take 16).map cleanChar }

end Sys2Proof.Machine
end

