-- ==== Sys2Proof/Machine/Ticket.lean ====
section
/-! DEFINITION. Ticket computation (chapter 8). -/

namespace Sys2Proof.Machine

/-! ## The stages -/

/-- R145: the dwell, in 0.1 s. -/
def dwellTime (lWrap vRun : Int) : Int := floorQuot (lWrap * 100) vRun

/-- R145, stage 1. -/
def doseTarget (fabric : FabricProfile) (colour : ColourProfile) (lWrap : Int) : Int :=
  max 0 (fabric.tSet - colour.tFloor) * dwellTime lWrap fabric.vRun

/-- R146, stage 2. -/
def predictedDose (sn : Snapshot) (z : Fin 6) : Int :=
  if sn.counts[z] = 0 then sn.dTarget else floorQuot (sn.dTarget * sn.means[z]) 4096

/-- The yield node at an index, of nine. -/
def nodeAt (nodes : Vector Int 9) (k : Nat) : Int := if h : k < 9 then nodes[k] else nodes[8]

/-- R147, stage 3: the yield of one ink at a dose. -/
def yieldAt (colour : ColourProfile) (nodes : Vector Int 9) (d : Int) : Int :=
  if d ≤ colour.dLo then nodes[0]
  else if colour.dLo + 8 * colour.step ≤ d then nodes[8]
  else
    let k := floorQuot (d - colour.dLo) colour.step
    let r := d - colour.dLo - k * colour.step
    floorQuot
      (nodeAt nodes k.toNat * (colour.step - r) + nodeAt nodes (k.toNat + 1) * r +
        floorQuot colour.step 2) colour.step

/-- R148, stage 4: the gain before its clamp, for a yield of 1 or more. -/
def unclampedGain (yRef y : Int) : Int := floorQuot (yRef * 4096 + floorQuot y 2) y

/-- R148, R149: the gain of an ink with yield y. -/
def gainFor (sn : Snapshot) (yRef y : Int) : Int :=
  if y = 0 then sn.gMax else clampTo sn.gMin sn.gMax (unclampedGain yRef y)

/-- R149: did the clamp change the gain? -/
def gainClamped (sn : Snapshot) (yRef y : Int) : Bool :=
  y ≠ 0 && gainFor sn yRef y ≠ unclampedGain yRef y

/-- R150, stage 5: the contribution of an ink. -/
def contribution (bMax gain : Int) : Int := floorQuot (bMax * gain + 2048) 4096

/-- R151: the limit factor of a lane sum. -/
def limitFactor (lTotal sum : Int) : Int :=
  if sum ≤ lTotal then 4096 else floorQuot (lTotal * 4096) sum

/-- R146 to R152: one lane of the ticket. -/
def laneTicket (sn : Snapshot) (z : Fin 6) : LaneTicket :=
  let d := predictedDose sn z
  let y : Fin 6 → Int := fun i => yieldAt sn.colour sn.colour.nodes[i] d
  let g : Fin 6 → Int := fun i => gainFor sn sn.colour.yRef[i] (y i)
  let sum := ((List.finRange 6).map fun i => contribution sn.colour.bMax[i] (g i)).sum
  { dPred := d
    gains := tab g
    k := limitFactor sn.lTotal sum
    marks :=
      { noHist := sn.counts[z] == 0
        lowYield := (List.finRange 6).any fun i => y i == 0
        clamp := (List.finRange 6).any fun i => gainClamped sn sn.colour.yRef[i] (y i) } }

/-- R153. -/
def ticketOf (sn : Snapshot) : Ticket := tab fun z => laneTicket sn z

/-! ## The engine -/

/-- R142. -/
def takeSnapshot (s : State) (b : Band) : Snapshot where
  counts := tab fun z => (s.bands.history[z]).length
  means := tab fun z => ringMean s.bands.history[z]
  gMin := s.engine.gMin
  gMax := s.engine.gMax
  dTarget := b.dTarget
  colour := colourOf s b.colour
  lTotal := (fabricOf s b.fabric).lTotal

/-- R141: an idle engine takes the oldest TICKETING band. -/
def startEngine (s : State) : State :=
  match s.engine.inFlight with
  | some _ => s
  | none =>
    match s.bands.queue.find? (fun b => b.state == .ticketing) with
    | none => s
    | some b => { s with engine.inFlight := some ⟨b.id, takeSnapshot s b⟩ }

/-- R155. -/
def ticketReport (b : Band) (t : Ticket) : Report :=
  .ticket b.id b.lotSeq b.fabric b.colour b.dTarget t

/-- R154; a discarded TICKET report raises REPORTS_DROPPED whole before TICKET_DONE (R156, R188). -/
def completeTicket (s : State) : State :=
  match s.engine.inFlight with
  | none => s
  | some f =>
    match findBand s f.band with
    | none => startEngine { s with engine.inFlight := none }
    | some b =>
      let t := ticketOf f.snapshot
      let s1 := modifyBand f.band (fun x => { x with ticket := some t, state := .ticketed }) s
      let s2 := settle (offerReport (ticketReport b t) s1)
      let s3 := raiseEvent .ticketDone f.band s2
      startEngine { s3 with engine.inFlight := none }

end Sys2Proof.Machine
end

