-- ==== Sys2Proof/Machine/Bands.lean ====
section
/-! DEFINITION. Following the web (section 6.4), the dose integration and settling (chapter 7). -/

namespace Sys2Proof.Machine

/-! ## Settling -/

/-- R131. -/
def ratioOf (measured target : Int) : Int :=
  min 65535 (floorQuot (measured * 4096 + floorQuot target 2) target)

/-- R132. -/
def deviates (tol : Int) (ratios : Vector Int 6) : Bool :=
  (List.finRange 6).any fun z => decide (tol < |ratios[z] - 4096|)

/-- R132. -/
def outOfRange (r : Int) : Bool := decide (r < 3072) || decide (5120 < r)

/-- R132. -/
def anyOut (ratios : Vector Int 6) : Bool := (List.finRange 6).any fun z => outOfRange ratios[z]

/-- The accumulators of a band; they are present from its first entry on the drum (R100). -/
def accOf (b : Band) : Vector Int 6 :=
  match b.acc with
  | some a => a
  | none => tab fun _ => 0

/-- R131, R132: a band as it settles. -/
def settledBand (tol : Int) (b : Band) : Band :=
  let ratios : Vector Int 6 := tab fun z => ratioOf (accOf b)[z] b.dTarget
  { b with
    state := .settled
    ratios := some ratios
    marks := { b.marks with
      dev := b.marks.dev || deviates tol ratios, out := b.marks.out || anyOut ratios } }

/-- R135: a mark that keeps a band out of the history. -/
def barred (m : BandMarks) : Bool :=
  m.stopped || m.uncertain || m.saturated || m.scorched || m.reversed || m.lifted || m.void

/-- R134: an entry joins a ring, which keeps the 8 newest. -/
def pushEntry (ring : List HistEntry) (e : HistEntry) : List HistEntry :=
  let r := ring ++ [e]
  r.drop (r.length - Config.ringCapacity)

/-- R135: the lanes of a settled band are offered to the history. -/
def offerHistory (id : Nat) (marks : BandMarks) (ratios : Vector Int 6) (s : State) : State :=
  if barred marks then s
  else { s with
    bands.history := tab fun z =>
      if outOfRange ratios[z] then s.bands.history[z]
      else pushEntry s.bands.history[z] ⟨ratios[z], id⟩ }

/-- R133 step 3: the SETTLED report. -/
def settledReport (b : Band) (ratios : Vector Int 6) : Report :=
  .settled b.id b.lotSeq b.fabric b.colour b.dTarget (accOf b) ratios b.marks

/-- R113, R133: a band settles. -/
def settleBand (b : Band) (s : State) : State :=
  let d := settledBand s.bands.doseTol b
  let ratios : Vector Int 6 := tab fun z => ratioOf (accOf b)[z] b.dTarget
  let s1 := modifyBand b.id (settledBand s.bands.doseTol) s
  let s2 := settle (offerReport (settledReport d ratios) s1)
  let s3 := if deviates s.bands.doseTol ratios then raiseEvent .doseDev b.id s2 else s2
  let s4 := if anyOut ratios then raiseEvent .doseOut b.id s3 else s3
  let s5 := raiseEvent .bandSettled b.id s4
  commit s5 (offerHistory b.id d.marks ratios s5)

/-! ## Tracking -/

/-- R111: an ON_WEB band at or beyond P_in enters ON_DRUM. -/
def enterDrum (b : Band) : Band := { b with state := .onDrum, acc := some (accOf b) }

/-- R112. -/
def fallBack (b : Band) : Band :=
  { b with state := .onWeb, marks := { b.marks with reversed := true } }

/-- R114: a SETTLED band at or beyond P_exit is removed. The band count is handed over before the lots are
found (the model's choice, log 48). -/
def exitStep (b : Band) (mid : Int) (s : State) : State :=
  if b.state = .settled ∧ s.line.pExit ≤ mid then commit s (removeBand b.id s) else s

/-- R112, R113: what an ON_DRUM band does. -/
def drumStep (b : Band) (mid : Int) (s : State) : State :=
  if b.state = .onDrum then
    if s.line.pOut ≤ mid then settleBand b s
    else if mid < s.line.pIn then modifyBand b.id fallBack s
    else s
  else s

/-- R111. -/
def webStep (b : Band) (mid : Int) (s : State) : State :=
  if b.state = .onWeb ∧ s.line.pIn ≤ mid then modifyBand b.id enterDrum s else s

/-- One rule applied to the band of an id as the queue now holds it. -/
def onBand (id : Nat) (rule : Band → Int → State → State) (s : State) : State :=
  match findBand s id with
  | none => s
  | some b =>
    match midDistance s b with
    | none => s
    | some mid => rule b mid s

/-- R110: the rules for one band, each step taking place in order. -/
def trackBand (s : State) (id : Nat) : State :=
  onBand id exitStep (onBand id drumStep (onBand id webStep s))

/-- R110: the started bands, oldest first. -/
def trackBands (s : State) : State :=
  (((s.bands.queue.filter fun b => b.start.isSome).map Band.id)).foldl trackBand s

/-- R3, R110, R93: the line unit publishes the derived position if it differs from the last one
published; the point is handed over first, then the band tracker follows, then the profile store (that
order is the model's choice, log 42). -/
def publishPosition (s : State) : State :=
  if derivedPosition s.line = s.line.position then s
  else
    findLots (trackBands (commit s { s with line.position := derivedPosition s.line }))

/-! ## Dose integration -/

/-- R124, R126: the accumulator after an addition. -/
def addedDose (acc excess : Int) : Int := min Config.doseLimit (acc + max 0 excess)

/-- R126: does the addition bring the accumulator to its limit? -/
def reachesLimit (acc excess : Int) : Bool := decide (Config.doseLimit ≤ acc + max 0 excess)

/-- R124, R126: the addition for one band, while NIP_FB is active. -/
def addDose (z : Fin 6) (temp : Int) (id : Nat) (s : State) : State :=
  match findBand s id with
  | none => s
  | some b =>
    let excess := temp - (colourOf s b.colour).tFloor
    let old := (accOf b)[z]
    let s1 := modifyBand id (fun x => { x with acc := some (upd (accOf x) z (addedDose old excess)) }) s
    if reachesLimit old excess && !b.marks.saturated then
      raiseEvent .saturated id
        (modifyBand id (fun x => { x with marks := { x.marks with saturated := true } }) s1)
    else s1

/-- R127: the scorch comparison after an addition. -/
def checkScorch (id : Nat) (s : State) : State :=
  match findBand s id with
  | none => s
  | some b =>
    let limit := (fabricOf s b.fabric).dScorch
    if ((List.finRange 6).any fun z => decide (limit ≤ (accOf b)[z])) && !b.marks.scorched then
      raiseEvent .scorch id
        (modifyBand id (fun x => { x with marks := { x.marks with scorched := true } }) s)
    else s

/-- R125: the marks of an arrival. -/
def arrivalMarks (speedZero nipFb held : Bool) (m : BandMarks) : BandMarks :=
  { m with
    stopped := m.stopped || speedZero
    lifted := m.lifted || !nipFb
    uncertain := m.uncertain || held }

/-- R128: one arrival worked on one band. -/
def integrateBand (z : Fin 6) (temp : Int) (held : Bool) (s : State) (id : Nat) : State :=
  let nipFb := s.pins.nipFb
  let speedZero := s.line.speed == 0
  let s1 := if nipFb then checkScorch id (addDose z temp id s) else s
  modifyBand id (fun b => { b with marks := arrivalMarks speedZero nipFb held b.marks }) s1

/-- R123: a temperature arrival for lane z reaches the bands that are ON_DRUM, oldest first. -/
def integrateDose (z : Fin 6) (temp : Int) (held : Bool) (s : State) : State :=
  ((s.bands.queue.filter fun b => b.state == .onDrum).map Band.id).foldl (integrateBand z temp held) s

end Sys2Proof.Machine
end

