-- ==== Sys2Proof/Machine/Link.lean ====
section
/-! DEFINITION. The command link (sections 11.1 to 11.3): the check, the input buffer, the reply slot, the
taking of a request, and link silence. The receiver's work is in Requests.lean. -/

namespace Sys2Proof.Machine

/-! ## The check -/

/-- R195: one shift of the register. -/
def crcShift (reg : BitVec 16) : BitVec 16 :=
  if reg.getLsbD 15 then (reg <<< 1) ^^^ 0x1021#16 else reg <<< 1

/-- R195: one byte into the register. -/
def crcByte (reg : BitVec 16) (b : Byte) : BitVec 16 :=
  crcShift (crcShift (crcShift (crcShift (crcShift (crcShift (crcShift (crcShift
    (reg ^^^ (b.zeroExtend 16 <<< 8)))))))))

/-- R195: the check of the bytes in the order they are sent. -/
def crc (bytes : List Byte) : BitVec 16 := bytes.foldl crcByte 0xFFFF#16

/-- R193: the bytes under the check: length, kind, tag, payload. -/
def Frame.body (f : Frame) : List Byte :=
  leBytes 2 f.payload.length ++ [f.kind, f.tag] ++ f.payload

/-- R193: a frame as bytes on the line. -/
def Frame.bytes (f : Frame) : List Byte :=
  0xA5 :: (f.body ++ leBytes 2 (crc f.body).toNat)

/-! ## Link silence and the input buffer -/

/-- R203: a valid frame restarts the timing while it is armed. -/
def restartSilence (s : State) : State :=
  if s.link.silenceArmed then { s with link.silence := some s.link.linkSilence } else s

/-- R197, R203: a valid frame joins the input buffer, or is discarded with LINK_ERROR detail 4. The silence
timing restarts before the LINK_ERROR is raised (the model's choice, log 44). -/
def validFrame (f : Frame) (s : State) : State :=
  if s.link.buffer.length < Config.bufferCapacity then
    restartSilence { s with link.buffer := s.link.buffer ++ [f] }
  else raiseEvent .linkError 4 (restartSilence s)

/-! ## Gathered bytes -/

/-- R193: the payload length that the first two gathered bytes give. -/
def gatheredLength (g : List Byte) : Nat := leValue (g.take 2)

/-- R193: the frame that the gathered bytes spell. -/
def gatheredFrame (g : List Byte) : Frame where
  kind := g.getD 2 0
  tag := g.getD 3 0
  payload := (g.drop 4).take (gatheredLength g)

/-- R195, R196: does the check agree? -/
def checkHolds (g : List Byte) : Bool :=
  leValue (g.drop (gatheredLength g + 4)) == (crc (g.take (gatheredLength g + 4))).toNat

/-- R196, case 3: a gap of more than 5 ms inside a frame (log 4). -/
def gapTimeout (s : State) : State :=
  match s.link.receiver with
  | .hunting => s
  | .inside _ => raiseEvent .linkError 3 { s with link.receiver := .hunting }

/-- R203: the link-silence timing expires. -/
def silenceExpired (s : State) : State :=
  match s.link.silence with
  | none => s
  | some _ => raiseEvent .linkSilent 0 { s with link.silence := none }

/-! ## Requests and replies -/

/-- What the owner of a request answers: the state it leaves, the status, and the items that follow
an OK or CLAMPED status. -/
structure Answer where
  state : State
  status : Status
  items : List Byte

/-- A refusal: the state as it was, and the status alone. -/
def refuse (st : Status) (s : State) : Answer := ⟨s, st, []⟩

/-- A request that reads: OK with its items, and no change of state. -/
def readOut (items : List Byte) (s : State) : Answer := ⟨s, .ok, items⟩

/-- R198: the payload of a reply. -/
def replyPayload (st : Status) (items : List Byte) : List Byte :=
  match st with
  | .ok | .clamped => enc8 st.code ++ items
  | _ => enc8 st.code

/-- R198: the reply to a request. -/
def replyFrame (f : Frame) (st : Status) (items : List Byte) : Frame :=
  ⟨f.kind + 0x80, f.tag, replyPayload st items⟩

/-- R197, R199: the reply enters the slot, and an idle transmitter takes it. -/
def putReply (r : Frame) (s : State) : State := transmitNext { s with link.slot := some r }

/-- R197, R207: can this request be taken now? The slot is empty, RESTART has not been taken, and the
frame is the oldest in the buffer; with an empty buffer it is received as it is taken (log 3). -/
def takeable (f : Frame) (s : State) : Bool :=
  s.runs && !s.link.restarting && s.link.slot.isNone &&
    (s.link.buffer.isEmpty || s.link.buffer.head? == some f)

/-- R197: the frame leaves the buffer; with an empty buffer it is a valid frame received now (log 3). -/
def dequeue (s : State) : State :=
  match s.link.buffer with
  | [] => restartSilence s
  | _ :: rest => { s with link.buffer := rest }

/-- R197: the link takes a request, its owner takes it whole, and its reply enters the slot. A request that
cannot be taken now is a valid frame received: it waits in the input buffer, or finds it full (log 3). -/
def takeRequest (f : Frame) (handle : List Byte → State → Answer) (s : State) : State :=
  if takeable f s then
    let a := handle f.payload (dequeue s)
    putReply (replyFrame f a.status a.items) a.state
  else if s.runs then validFrame f s
  else s

/-- A row of LINE_CMD, LEVEL_CMD or SCAN_CMD takes the payloads that select it (log 23). -/
def takeRow (codes own : Nat) (f : Frame) (handle : List Byte → State → Answer) (s : State) : State :=
  if selectsRow codes own f.payload then takeRequest f handle s else s

/-- R198: the payload must have exactly this length, else LENGTH. -/
def withLength (n : Nat) (payload : List Byte) (s : State) (rest : Answer) : Answer :=
  if payload.length = n then rest else refuse .length s

end Sys2Proof.Machine
end

