-- ==== Sys2Proof/Machine/LineSteps.lean ====
section
/-! DEFINITION. The commands of the line unit: the encoder, the speed period, the nip, the safety inputs
and LINE_CMD (chapter 1). -/

namespace Sys2Proof.Machine

/-- R205: while the part has no power or is held in reset nothing but its pins changes (log 2). -/
def whenRuns (s : State) (f : State → State) : State := if s.runs then f s else s

/-! ## Encoder, speed and dwell -/

/-- R3. -/
def execQuadratureEdge (forward : Bool) (s : State) : Host.Outcome State Fault Refusal :=
  .next (whenRuns s fun s =>
    { s with line.count := movedCount s.line.count (if forward then 1 else -1) })

/-- R3, R110, R93. -/
def execPositionChange (delta : Int) (s : State) : Host.Outcome State Fault Refusal :=
  .next (whenRuns s fun s =>
    publishPosition { s with line.count := movedCount s.line.count delta })

/-- R5, R7: the measured speed is published, and the reference stepped. The speed is handed over and the
levels it triggers run before the step (the model's choice, log 36). -/
def speedPeriod (s : State) : State :=
  let s1 := commit s (measureSpeed s)
  commit s1 (stepReference s1)

def execSpeedPeriodExpiry (s : State) : Host.Outcome State Fault Refusal :=
  .next (whenRuns s speedPeriod)

/-- R11: the dwell timing expires. -/
def dwellExpired (s : State) : State :=
  match s.line.dwell with
  | none => s
  | some _ => if s.line.mode = .warming then commit s (setMode .ready .noPhase s) else s

def execWarmUpDwellExpiry (s : State) : Host.Outcome State Fault Refusal :=
  .next (whenRuns s dwellExpired)

/-! ## The nip -/

/-- R21: NIP_FB has become active. -/
def feedbackActive (s : State) : State :=
  match s.line.nip with
  | .closing => engageComplete { s with line.nip := .closed }
  | .lost => { s with line.nip := .closed }
  | .opened | .closed | .opening => s

/-- R16, R21: the stop that a lost nip brings about in RUNNING. -/
def stopCommitted (s : State) : State :=
  if canStop s then
    let s1 := commit s (beginStop s)
    commit s1 (endStop s1)
  else s

/-- R21: NIP_FB has become inactive; `old` is the state before. A NIP_FAULT is recorded before the nip's points
are handed over (the model's choice, log 55). -/
def feedbackInactive (old s : State) : State :=
  match s.line.nip with
  | .closed =>
    if s.line.mode = .running then
      let s1 := commit old (record .nipFault 0 { s with line.nip := .lost })
      if s1.line.mode = .running then stopCommitted s1 else s1
    else commit old { s with line.nip := .lost }
  | .opening => commit old (liftDone { s with line.nip := .opened })
  | .opened | .closing | .lost => commit old s

def execNipFbActive (s : State) : Host.Outcome State Fault Refusal :=
  .next
    (if s.pins.nipFb then s
     else
      let s1 := { s with pins.nipFb := true }
      if s.runs then commit s (feedbackActive s1) else s1)

def execNipFbInactive (s : State) : Host.Outcome State Fault Refusal :=
  .next
    (if s.pins.nipFb then
      let s1 := { s with pins.nipFb := false }
      if s.runs then feedbackInactive s s1 else s1
     else s)

/-- R21: the engage timing expires; it runs in CLOSING alone. NIP_FAULT is taken whole, with the levels it
triggers, once the nip is OPEN; FEED goes off and the line returns to READY only after them, and only if the
line is then still in RUNNING ENGAGING (the model's choice, log 30). -/
def engageTimingEnds (s : State) : State :=
  if s.line.nip = .closing then
    let s1 := commit s (engageExpired s)
    commit s1 (failedEngage s1)
  else s

def execEngageTimingExpiry (s : State) : Host.Outcome State Fault Refusal :=
  .next (whenRuns s engageTimingEnds)

/-- R21: the lift timing expires; it runs in OPENING alone. -/
def liftTimingEnds (s : State) : State :=
  if s.line.nip = .opening then commit s (liftDone { record .nipFault 0 s with line.nip := .opened })
  else s

def execLiftTimingExpiry (s : State) : Host.Outcome State Fault Refusal :=
  .next (whenRuns s liftTimingEnds)

/-! ## Safety inputs -/

/-- R23, R77: ESTOP becomes active. It is recorded (flag, fault record, report) before the ESTOP point and the
duty points that are now 0 are handed over to the outputs and watches (the model's choice, log 55). -/
def estopPressed (s : State) : State :=
  commit s (record .estop 0 (enforceHold { s with pins.estop := true }))

def execEstopActive (s : State) : Host.Outcome State Fault Refusal :=
  .next
    (if s.pins.estop then s
     else if s.runs then estopPressed s
     else { s with pins.estop := true })

/-- R23, R77: no event; the zones that nothing else holds off wait for the next window. -/
def execEstopReleased (s : State) : Host.Outcome State Fault Refusal :=
  .next
    (if s.runs then commit s { s with pins.estop := false } else { s with pins.estop := false })

/-- R24: the modes in which an opening GUARD is a fault. -/
def guardMatters (s : State) : Bool :=
  s.line.mode == .running || s.line.mode == .stopping || s.line.mode == .threading

/-- R24: GUARD opens. A fault is recorded before the GUARD point is handed over (the model's choice, log 55). -/
def guardOpened (s : State) : State :=
  let s1 := { s with pins.guardClosed := false }
  commit s (if guardMatters s then record .guard 0 s1 else s1)

def execGuardOpens (s : State) : Host.Outcome State Fault Refusal :=
  .next
    (if s.pins.guardClosed then
      (if s.runs then guardOpened s else { s with pins.guardClosed := false })
     else s)

def execGuardCloses (s : State) : Host.Outcome State Fault Refusal :=
  .next
    (if s.runs then commit s { s with pins.guardClosed := true }
     else { s with pins.guardClosed := true })

/-! ## LINE_CMD -/

/-- R19, R200: one command byte; a value other than the six is refused with RANGE (log 23). -/
def lineCommand (act : State → Answer) (payload : List Byte) (s : State) : Answer :=
  withLength 1 payload s (if byteAt payload 0 < 6 then act s else refuse .range s)

/-- R10, check 3. -/
def scannerServesHeat (s : State) : Bool :=
  s.meas.scan == .continuous && s.meas.first.val == 0 && decide (9 ≤ s.meas.last.val) &&
    (List.finRange 10).all fun k =>
      (s.meas.channels[(⟨k.val, by omega⟩ : Fin 16)]).mode != .disabled

/-- R10: the effect of a taken HEAT. The setpoints change before the dwell starts to be watched, so the
change itself is not checked for it (the model's choice, log 41). -/
def startHeat (s : State) : State := setMode .warming .noPhase (setHeatHold false s)

/-- R10. -/
def heatAnswer (s : State) : Answer :=
  if s.line.mode ≠ .off then refuse .mode s
  else if s.profiles.current = none then refuse .noLot s
  else if scannerServesHeat s = false then refuse .mode s
  else if s.pins.estop then refuse .mode s
  else ⟨commit s (startHeat s), .ok, []⟩

/-- R12, R22: the effect of a taken COOL. -/
def startCool (s : State) : State :=
  nipOff { setHeatHold false (setMode .off .noPhase s) with line.feed := false }

/-- R12. -/
def coolAnswer (s : State) : Answer :=
  if s.line.mode = .warming ∨ s.line.mode = .ready then ⟨commit s (startCool s), .ok, []⟩
  else refuse .mode s

/-- R13, R15: READY with GUARD closed and ESTOP released. -/
def readyToMove (s : State) : Bool :=
  s.line.mode == .ready && s.pins.guardClosed && !s.pins.estop

/-- R13: the effect of a taken RUN. -/
def startRun (s : State) : State :=
  nipOn { setHeatHold false (setMode .running .engaging s) with line.feed := true }

/-- R13. -/
def runAnswer (s : State) : Answer :=
  if readyToMove s then ⟨commit s (startRun s), .ok, []⟩ else refuse .mode s

/-- R15: the effect of a taken THREAD. -/
def startThread (s : State) : State :=
  let s1 := nipOff (setMode .threading .noPhase s)
  setLineTarget s1.line.vThread .rampRate { s1 with line.feed := true }

/-- R15. -/
def threadAnswer (s : State) : Answer :=
  if readyToMove s then ⟨commit s (startThread s), .ok, []⟩ else refuse .mode s

/-- R16. -/
def stopAnswer (s : State) : Answer :=
  if canStop s then ⟨stopCommitted s, .ok, []⟩ else refuse .mode s

/-- R18: SAFE can be left. -/
def safeCanClear (s : State) : Bool :=
  !s.pins.estop && s.pins.guardClosed && s.events.fault.isEmpty

/-- R18. -/
def clearAnswer (s : State) : Answer :=
  if s.line.mode = .safe then
    if safeCanClear s then
      ⟨commit s (setMode .off .noPhase { s with line.beacon := false }), .ok, []⟩
    else refuse .state s
  else if s.line.beacon then ⟨commit s { s with line.beacon := false }, .ok, []⟩
  else refuse .mode s

def execLineCmdHeat (tag : Byte) (payload : List Byte) (s : State) :
    Host.Outcome State Fault Refusal :=
  .next (takeRow 6 0 ⟨0x04, tag, payload⟩ (lineCommand heatAnswer) s)

def execLineCmdCool (tag : Byte) (payload : List Byte) (s : State) :
    Host.Outcome State Fault Refusal :=
  .next (takeRow 6 1 ⟨0x04, tag, payload⟩ (lineCommand coolAnswer) s)

def execLineCmdRun (tag : Byte) (payload : List Byte) (s : State) :
    Host.Outcome State Fault Refusal :=
  .next (takeRow 6 2 ⟨0x04, tag, payload⟩ (lineCommand runAnswer) s)

def execLineCmdStop (tag : Byte) (payload : List Byte) (s : State) :
    Host.Outcome State Fault Refusal :=
  .next (takeRow 6 3 ⟨0x04, tag, payload⟩ (lineCommand stopAnswer) s)

def execLineCmdThread (tag : Byte) (payload : List Byte) (s : State) :
    Host.Outcome State Fault Refusal :=
  .next (takeRow 6 4 ⟨0x04, tag, payload⟩ (lineCommand threadAnswer) s)

def execLineCmdClear (tag : Byte) (payload : List Byte) (s : State) :
    Host.Outcome State Fault Refusal :=
  .next (takeRow 6 5 ⟨0x04, tag, payload⟩ (lineCommand clearAnswer) s)

end Sys2Proof.Machine
end

