-- ==== Sys2Proof/Machine/LotSteps.lean ====
section
/-! DEFINITION. LOT and the profile requests (R85 to R92). -/

namespace Sys2Proof.Machine

/-! ## LOT -/

/-- R91, R106: a counter advances: from 65535 to 1, else by one. -/
def nextNumber (n : Nat) : Nat := if n = 65535 then 1 else n + 1

/-- R91, steps 1 and 2. -/
def declareLot (slot : Fin 8) (s : State) : State :=
  { s with
    profiles.seqCounter := nextNumber s.profiles.seqCounter
    profiles.current := some ⟨nextNumber s.profiles.seqCounter, slot⟩ }

/-- R91: points 7 and 8 are handed over, and the levels that this triggers run, before the lots are found
(the model's choice, log 48). -/
def lotAnswer (payload : List Byte) (s : State) : Answer :=
  withLength 1 payload s
    (match asFin 8 (byteAt payload 0) with
     | none => refuse .range s
     | some slot =>
       if s.profiles.fabric[slot] = none then refuse .noSuch s
       else
         ⟨findLots (commit s (declareLot slot s)), .ok, enc16 (nextNumber s.profiles.seqCounter)⟩)

def execLot (tag : Byte) (payload : List Byte) (s : State) : Host.Outcome State Fault Refusal :=
  .next (takeRequest ⟨0x05, tag, payload⟩ lotAnswer s)

/-! ## Records on the link -/

/-- Table 5-1: the fields of a colour profile, nodes ink by ink (log 19). -/
def encColour (p : ColourProfile) : List Byte :=
  enc32 p.tFloor ++ enc32 p.dLo ++ enc32 p.step ++ encTable enc32 p.yRef ++ encTable enc32 p.bMax ++
    encTable (encTable enc32) p.nodes

/-- Table 5-2: the fields of a fabric profile. -/
def encFabric (p : FabricProfile) : List Byte :=
  enc32 p.tSet ++ enc32 p.vRun ++ encTable enc32 p.tension ++ enc32 p.lTotal ++ enc32 p.dScorch

/-- Table 5-1: 69 fields of four bytes. -/
def colourBytes : Nat := 276

/-- Table 5-2: 8 fields of four bytes. -/
def fabricBytes : Nat := 32

def decColour (name bs : List Byte) : ColourProfile where
  name := name
  tFloor := longAt bs 0
  dLo := longAt bs 4
  step := longAt bs 8
  yRef := tab fun i => longAt bs (12 + 4 * i.val)
  bMax := tab fun i => longAt bs (36 + 4 * i.val)
  nodes := tab fun i => tab fun k => longAt bs (60 + 36 * i.val + 4 * k.val)

def decFabric (name bs : List Byte) : FabricProfile where
  name := name
  tSet := longAt bs 0
  vRun := longAt bs 4
  tension := tab fun t => longAt bs (8 + 4 * t.val)
  lTotal := longAt bs 24
  dScorch := longAt bs 28

/-! ## The kind and slot of a request -/

/-- A slot of one of the two kinds. -/
inductive SlotRef where
  | colour (slot : Fin 16)
  | fabric (slot : Fin 8)
  deriving DecidableEq, Repr

/-- R85, R88: checks 1 and 2; `none` is RANGE. -/
def slotRef (kind slot : Nat) : Option SlotRef :=
  match kind with
  | 0 => (asFin 16 slot).map SlotRef.colour
  | 1 => (asFin 8 slot).map SlotRef.fabric
  | _ => none

/-- R87. -/
def slotInUse (s : State) (r : SlotRef) : Bool :=
  match r with
  | .colour slot => colourInUse s slot
  | .fabric slot => fabricInUse s slot

/-! ## PROFILE_WRITE -/

/-- R85, check 5. -/
def goodName (name : List Byte) : Bool := name.all fun b => cleanChar b == b

/-- R86: the clamped record fills the slot. -/
def storeProfile (r : SlotRef) (name fields : List Byte) (s : State) : Answer :=
  match r with
  | .colour slot =>
    let p := decColour name fields
    ⟨{ s with profiles.colour := upd s.profiles.colour slot (some (clampColour p)) },
      if clampColour p = p then .ok else .clamped, []⟩
  | .fabric slot =>
    let p := decFabric name fields
    ⟨{ s with profiles.fabric := upd s.profiles.fabric slot (some (clampFabric p)) },
      if clampFabric p = p then .ok else .clamped, []⟩

/-- R85: the bytes that the fields of the kind take. -/
def slotBytes (r : SlotRef) : Nat :=
  match r with
  | .colour _ => colourBytes
  | .fabric _ => fabricBytes

/-- R85, checks 3 to 6, with the bytes from the name length on. -/
def writeRecord (r : SlotRef) (nameLength : Nat) (rest : List Byte) (s : State) : Answer :=
  if 16 < nameLength then refuse .length s
  else if rest.length ≠ nameLength + slotBytes r then refuse .length s
  else if goodName (rest.take nameLength) = false then refuse .range s
  else if slotInUse s r then refuse .inUse s
  else storeProfile r (rest.take nameLength) (rest.drop nameLength) s

/-- R85: the checks in order; a payload that ends before a checked byte is refused with LENGTH there
(log 24). -/
def profileWriteAnswer (payload : List Byte) (s : State) : Answer :=
  match payload with
  | [] => refuse .length s
  | [k] => if 1 < k.toNat then refuse .range s else refuse .length s
  | k :: slot :: more =>
    match slotRef k.toNat slot.toNat with
    | none => refuse .range s
    | some r =>
      match more with
      | [] => refuse .length s
      | m :: rest => writeRecord r m.toNat rest s

def execProfileWrite (tag : Byte) (payload : List Byte) (s : State) :
    Host.Outcome State Fault Refusal :=
  .next (takeRequest ⟨0x06, tag, payload⟩ profileWriteAnswer s)

/-! ## PROFILE_READ and PROFILE_ERASE -/

/-- R89: the reply for an occupied slot; `none` is an empty slot. -/
def profileItems (s : State) (r : SlotRef) : Option (List Byte) :=
  match r with
  | .colour slot =>
    (s.profiles.colour[slot]).map fun p =>
      enc8 0 ++ enc8 slot.val ++ encName p.name ++ encColour p ++ enc16 (colourUses s slot)
  | .fabric slot =>
    (s.profiles.fabric[slot]).map fun p =>
      enc8 1 ++ enc8 slot.val ++ encName p.name ++ encFabric p ++ enc16 (fabricUses s slot) ++
        encFlag (lotNames s.profiles.current slot) ++ encFlag (lotNames s.profiles.heat slot) ++
        encFlag (lotNames s.profiles.nip slot)

/-- R89. -/
def profileReadAnswer (payload : List Byte) (s : State) : Answer :=
  withLength 2 payload s
    (match slotRef (byteAt payload 0) (byteAt payload 1) with
     | none => refuse .range s
     | some r =>
       match profileItems s r with
       | none => refuse .noSuch s
       | some items => readOut items s)

def execProfileRead (tag : Byte) (payload : List Byte) (s : State) :
    Host.Outcome State Fault Refusal :=
  .next (takeRequest ⟨0x07, tag, payload⟩ profileReadAnswer s)

def slotOccupied (s : State) (r : SlotRef) : Bool :=
  match r with
  | .colour slot => (s.profiles.colour[slot]).isSome
  | .fabric slot => (s.profiles.fabric[slot]).isSome

/-- R88: the slot is emptied. -/
def emptySlot (r : SlotRef) (s : State) : State :=
  match r with
  | .colour slot => { s with profiles.colour := upd s.profiles.colour slot none }
  | .fabric slot => { s with profiles.fabric := upd s.profiles.fabric slot none }

/-- R88. -/
def profileEraseAnswer (payload : List Byte) (s : State) : Answer :=
  withLength 2 payload s
    (match slotRef (byteAt payload 0) (byteAt payload 1) with
     | none => refuse .range s
     | some r =>
       if slotOccupied s r = false then refuse .noSuch s
       else if slotInUse s r then refuse .inUse s
       else ⟨emptySlot r s, .ok, []⟩)

def execProfileErase (tag : Byte) (payload : List Byte) (s : State) :
    Host.Outcome State Fault Refusal :=
  .next (takeRequest ⟨0x08, tag, payload⟩ profileEraseAnswer s)

end Sys2Proof.Machine
end

