-- ==== Sys2Proof/Machine/BandSteps.lean ====
section
/-! DEFINITION. The band requests, the history requests and the ticket computation's end (chapters 6, 7
and 8). -/

namespace Sys2Proof.Machine

/-- R154. -/
def execTicketCompletion (s : State) : Host.Outcome State Fault Refusal :=
  .next (whenRuns s fun s => commit s (completeTicket s))

/-! ## TICKET_REQ -/

/-- R106: the counter advances until it reaches an id that no queued record holds. -/
def freshId (queue : List Band) : Nat → Nat → Nat
  | 0, n => n
  | k + 1, n =>
    if queue.any (fun b => b.id == nextNumber n) then freshId queue k (nextNumber n)
    else nextNumber n

/-- R106: the id that the next accepted band takes; one more try than the queue has records is enough. -/
def nextBandId (s : State) : Nat :=
  freshId s.bands.queue (s.bands.queue.length + 1) s.bands.idCounter

/-- R104, check 7. -/
def ticketingCount (s : State) : Nat :=
  (s.bands.queue.filter fun b => b.state == .ticketing).length

/-- R105: the record of an accepted band. -/
def newBand (s : State) (lot : Lot) (colour : Fin 16) (length dTarget : Int) : Band where
  id := nextBandId s
  state := .ticketing
  lotSeq := lot.seq
  fabric := lot.fabric
  colour := colour
  length := length
  dTarget := dTarget
  start := none
  ticket := none
  acc := none
  ratios := none
  marks := BandMarks.empty

/-- R105: the band joins the queue and is handed to the ticket engine. An idle engine takes its snapshot
before the band count is handed over and the levels it triggers run (the model's choice, log 52). -/
def acceptBand (b : Band) (s : State) : State :=
  startEngine { s with bands.queue := s.bands.queue ++ [b], bands.idCounter := b.id }

/-- R104: the record of a slot number; a number outside 0..15 names no profile. -/
def namedColour (s : State) (slot : Nat) : Option (Fin 16 × ColourProfile) :=
  (asFin 16 slot).bind fun c => (s.profiles.colour[c]).map fun p => (c, p)

/-- R104, checks 4 to 7, with the lot and the profile found. -/
def judgeTicket (s : State) (lot : Lot) (colour : Fin 16) (p : ColourProfile) (length : Int) :
    Answer :=
  let target := doseTarget (fabricOf s lot.fabric) p s.line.lWrap
  if length < 200 ∨ 5000 < length then refuse .range s
  else if target ≤ 0 then refuse .noDose s
  else if Config.queueCapacity ≤ s.bands.queue.length then refuse .full s
  else if Config.ticketingCapacity ≤ ticketingCount s then refuse .busy s
  else
    let b := newBand s lot colour length target
    ⟨commit s (acceptBand b s), .ok, enc16 b.id ++ enc32 target⟩

/-- R104: a band length and a colour slot. -/
def ticketReqAnswer (payload : List Byte) (s : State) : Answer :=
  withLength 3 payload s
    (match s.profiles.current with
     | none => refuse .noLot s
     | some lot =>
       match namedColour s (byteAt payload 2) with
       | none => refuse .noSuch s
       | some (colour, p) => judgeTicket s lot colour p (wordAt payload 0))

def execTicketReq (tag : Byte) (payload : List Byte) (s : State) :
    Host.Outcome State Fault Refusal :=
  .next (takeRequest ⟨0x09, tag, payload⟩ ticketReqAnswer s)

/-! ## BAND_START, BAND_CANCEL, BAND_VOID -/

/-- R108, check 1. -/
def startAllowed (m : LineMode) : Bool :=
  match m with
  | .ready | .running | .stopping | .threading => true
  | .off | .warming | .safe => false

/-- R108, check 4: the oldest band that is not started. -/
def oldestUnstarted (s : State) : Option Band := s.bands.queue.find? fun b => b.start.isNone

/-- R108, check 6: the web has cleared the newest started band. -/
def webCleared (s : State) : Bool :=
  match s.bands.queue.reverse.find? (fun b => b.start.isSome) with
  | none => true
  | some b =>
    match b.start with
    | none => true
    | some p => decide (p + b.length ≤ s.line.position)

/-- R109: the band is started where the web stands. -/
def startBand (id : Nat) (s : State) : State :=
  modifyBand id (fun b => { b with start := some s.line.position, state := .onWeb }) s

/-- R108, checks 3 to 6. A taken BAND_START is committed before the lots are found (R109; the model's
choice, log 48). -/
def judgeStart (b : Band) (s : State) : Answer :=
  if b.start.isSome then refuse .state s
  else if (oldestUnstarted s).map Band.id ≠ some b.id then refuse .order s
  else if b.state ≠ .ticketed then refuse .state s
  else if webCleared s = false then refuse .order s
  else ⟨findLots (commit s (startBand b.id s)), .ok, enc32 s.line.position⟩

/-- R108: a band id. -/
def bandStartAnswer (payload : List Byte) (s : State) : Answer :=
  withLength 2 payload s
    (if startAllowed s.line.mode = false then refuse .mode s
     else
      match findBand s (wordAt payload 0) with
      | none => refuse .noSuch s
      | some b => judgeStart b s)

def execBandStart (tag : Byte) (payload : List Byte) (s : State) :
    Host.Outcome State Fault Refusal :=
  .next (takeRequest ⟨0x0A, tag, payload⟩ bandStartAnswer s)

/-- R157: the engine abandons the computation of a cancelled band and takes the next. -/
def abandonTicket (id : Nat) (s : State) : State :=
  match s.engine.inFlight with
  | none => s
  | some f => if f.band = id then startEngine { s with engine.inFlight := none } else s

/-- R117: the record leaves the queue. An engine that abandons its computation takes its next snapshot before
the band count is handed over and the levels it triggers run (the model's choice, log 52). -/
def cancelBand (id : Nat) (s : State) : State := abandonTicket id (removeBand id s)

/-- R117: a band id. The band count is handed over before the lots are found (the model's choice, log 48). -/
def bandCancelAnswer (payload : List Byte) (s : State) : Answer :=
  withLength 2 payload s
    (match findBand s (wordAt payload 0) with
     | none => refuse .noSuch s
     | some b =>
       if b.state = .ticketing ∨ b.state = .ticketed then
         ⟨findLots (commit s (cancelBand b.id s)), .ok, []⟩
       else refuse .state s)

def execBandCancel (tag : Byte) (payload : List Byte) (s : State) :
    Host.Outcome State Fault Refusal :=
  .next (takeRequest ⟨0x0B, tag, payload⟩ bandCancelAnswer s)

/-- R118. -/
def voidBand (id : Nat) (s : State) : State :=
  modifyBand id (fun b => { b with marks := { b.marks with void := true } }) s

/-- R118: a band id. -/
def bandVoidAnswer (payload : List Byte) (s : State) : Answer :=
  withLength 2 payload s
    (match findBand s (wordAt payload 0) with
     | none => refuse .noSuch s
     | some b =>
       if b.state = .onWeb ∨ b.state = .onDrum then ⟨voidBand b.id s, .ok, []⟩
       else refuse .state s)

def execBandVoid (tag : Byte) (payload : List Byte) (s : State) :
    Host.Outcome State Fault Refusal :=
  .next (takeRequest ⟨0x0C, tag, payload⟩ bandVoidAnswer s)

/-! ## BAND_READ and QUEUE_READ -/

/-- Table 11-6, the start part. -/
def encStart (s : State) (b : Band) : List Byte :=
  encOption (fun p =>
    enc32 p ++ enc32 (s.line.position - p) ++
      enc32 (s.line.position - p - floorQuot b.length 2)) b.start

/-- Table 11-6. -/
def encBand (s : State) (b : Band) : List Byte :=
  enc16 b.id ++ enc8 b.state.code ++ enc16 b.lotSeq ++ enc8 b.fabric.val ++ enc8 b.colour.val ++
    enc16i b.length ++ enc32 b.dTarget ++ encStart s b ++ encOption (encTable encLaneTicket) b.ticket ++
    encOption (encTable enc32) b.acc ++ encOption (encTable enc16i) b.ratios ++ encBandMarks b.marks

/-- R119. -/
def bandReadAnswer (payload : List Byte) (s : State) : Answer :=
  withLength 2 payload s
    (match findBand s (wordAt payload 0) with
     | none => refuse .noSuch s
     | some b => readOut (encBand s b) s)

def execBandRead (tag : Byte) (payload : List Byte) (s : State) :
    Host.Outcome State Fault Refusal :=
  .next (takeRequest ⟨0x0D, tag, payload⟩ bandReadAnswer s)

/-- R120: the entry of one record. -/
def queueEntry (s : State) (b : Band) : List Byte :=
  enc16 b.id ++ enc8 b.state.code ++ encOption enc32 (midDistance s b)

/-- R120. -/
def queueReadAnswer (payload : List Byte) (s : State) : Answer :=
  withLength 0 payload s
    (readOut
      (enc32 s.line.position ++ enc16 s.bands.queue.length ++ s.bands.queue.flatMap (queueEntry s)) s)

def execQueueRead (tag : Byte) (payload : List Byte) (s : State) :
    Host.Outcome State Fault Refusal :=
  .next (takeRequest ⟨0x0E, tag, payload⟩ queueReadAnswer s)

/-! ## HISTORY_READ and HISTORY_CLEAR -/

def encHistEntry (e : HistEntry) : List Byte := enc16i e.ratio ++ enc16 e.band

/-- R137: the part of one lane; the mean has two bytes, as a ratio has (the model's choice, log 43). -/
def encRing (ring : List HistEntry) : List Byte :=
  enc16 ring.length ++ enc16i (ringMean ring) ++ ring.flatMap encHistEntry

/-- R137. -/
def historyReadAnswer (payload : List Byte) (s : State) : Answer :=
  withLength 0 payload s (readOut (encTable encRing s.bands.history) s)

def execHistoryRead (tag : Byte) (payload : List Byte) (s : State) :
    Host.Outcome State Fault Refusal :=
  .next (takeRequest ⟨0x0F, tag, payload⟩ historyReadAnswer s)

/-- R138: lane 0 empties all six rings, lanes 1 to 6 one of them. -/
def clearHistory (lane : Nat) (s : State) : State :=
  { s with
    bands.history := tab fun z =>
      if lane = 0 ∨ lane = z.val + 1 then [] else s.bands.history[z] }

/-- R138. -/
def historyClearAnswer (payload : List Byte) (s : State) : Answer :=
  withLength 1 payload s
    (if 6 < byteAt payload 0 then refuse .range s
     else ⟨commit s (clearHistory (byteAt payload 0) s), .ok, []⟩)

def execHistoryClear (tag : Byte) (payload : List Byte) (s : State) :
    Host.Outcome State Fault Refusal :=
  .next (takeRequest ⟨0x10, tag, payload⟩ historyClearAnswer s)

end Sys2Proof.Machine
end

