-- ==== Sys2Proof/Machine/EventSteps.lean ====
section
/-! DEFINITION. The commands of the event unit: the event set, the mask and the fault record
(chapter 10). -/

namespace Sys2Proof.Machine

/-- R184: the event set, the report mask and the discard count. -/
def eventsReadAnswer (payload : List Byte) (s : State) : Answer :=
  withLength 0 payload s
    (readOut (encSet s.events.set ++ encSet s.events.mask ++ enc16 s.events.discarded) s)

def execEventsRead (tag : Byte) (payload : List Byte) (s : State) :
    Host.Outcome State Fault Refusal :=
  .next (takeRequest ⟨0x19, tag, payload⟩ eventsReadAnswer s)

/-- R185: the named flags are cleared; naming REPORTS_DROPPED also withdraws the notice. -/
def clearFlags (kinds : BitVec 23) (s : State) : State :=
  let s1 := { s with events.set := s.events.set &&& ~~~kinds }
  if hasKind kinds .reportsDropped then { s1 with events.discarded := 0, events.owed := false } else s1

def eventsClearAnswer (payload : List Byte) (s : State) : Answer :=
  withLength 4 payload s
    (match parseKindSet payload with
     | none => refuse .range s
     | some kinds => ⟨clearFlags kinds s, .ok, []⟩)

def execEventsClear (tag : Byte) (payload : List Byte) (s : State) :
    Host.Outcome State Fault Refusal :=
  .next (takeRequest ⟨0x1A, tag, payload⟩ eventsClearAnswer s)

/-- R186. -/
def setMask (mask : BitVec 23) (s : State) : State := { s with events.mask := mask }

def maskWriteAnswer (payload : List Byte) (s : State) : Answer :=
  withLength 4 payload s
    (match parseKindSet payload with
     | none => refuse .range s
     | some mask => ⟨setMask mask s, .ok, []⟩)

def execMaskWrite (tag : Byte) (payload : List Byte) (s : State) :
    Host.Outcome State Fault Refusal :=
  .next (takeRequest ⟨0x1B, tag, payload⟩ maskWriteAnswer s)

/-- R190: the kind set, then the other fields, each with its presence byte (log 21). -/
def encFaultRecord (r : FaultRecord) : List Byte :=
  encSet r.kinds ++ encOption (fun k => enc8 (EventKind.code k)) r.first ++ encOption encLocus r.locus ++
    encOption (fun m => enc8 (LineMode.code m)) r.mode ++ encOption enc32 r.position

def faultReadAnswer (payload : List Byte) (s : State) : Answer :=
  withLength 0 payload s (readOut (encFaultRecord s.events.fault) s)

def execFaultRead (tag : Byte) (payload : List Byte) (s : State) :
    Host.Outcome State Fault Refusal :=
  .next (takeRequest ⟨0x1C, tag, payload⟩ faultReadAnswer s)

/-- R191. -/
def emptyFaultRecord (s : State) : State := { s with events.fault := FaultRecord.empty }

def faultClearAnswer (payload : List Byte) (s : State) : Answer :=
  withLength 0 payload s ⟨emptyFaultRecord s, .ok, []⟩

def execFaultClear (tag : Byte) (payload : List Byte) (s : State) :
    Host.Outcome State Fault Refusal :=
  .next (takeRequest ⟨0x1D, tag, payload⟩ faultClearAnswer s)

end Sys2Proof.Machine
end

