-- ==== Sys2Proof/Machine/LinkSteps.lean ====
section
/-! DEFINITION. The commands of the command link: the gap, link silence, HELLO, RESTART and requests of no
kind (chapter 11). Bytes received and the transmitter's end are in Requests.lean. -/

namespace Sys2Proof.Machine

/-- R196, case 3. -/
def execInterbyteGapTimeout (s : State) : Host.Outcome State Fault Refusal :=
  .next (whenRuns s gapTimeout)

/-- R203. -/
def execLinkSilenceExpiry (s : State) : Host.Outcome State Fault Refusal :=
  .next (whenRuns s silenceExpired)

/-- R204: the character codes of VKS-614. -/
def partCode : List Byte := [0x56, 0x4B, 0x53, 0x2D, 0x36, 0x31, 0x34]

/-- R209: a STORE is in progress. -/
def storeBusy (s : State) : Bool := s.nvm.writing.isSome

/-- R204: the items of HELLO (the silicon revision is one byte, log 20). -/
def helloItems (s : State) : List Byte :=
  partCode ++ enc8 Config.siliconRevision ++ enc8 s.link.cause.code ++
    encOption (fun m => enc8 (LineMode.code m)) s.link.priorMode ++
    encFlag (!s.events.fault.isEmpty) ++ enc8 s.link.storeState.code ++ encFlag (storeBusy s)

def helloAnswer (payload : List Byte) (s : State) : Answer :=
  withLength 0 payload s (readOut (helloItems s) s)

def execHello (tag : Byte) (payload : List Byte) (s : State) : Host.Outcome State Fault Refusal :=
  .next (takeRequest ⟨0x01, tag, payload⟩ helloAnswer s)

/-- R207: no further request is taken. -/
def restartAnswer (payload : List Byte) (s : State) : Answer :=
  withLength 0 payload s
    (if storeBusy s then refuse .busy s else ⟨{ s with link.restarting := true }, .ok, []⟩)

def execRestart (tag : Byte) (payload : List Byte) (s : State) :
    Host.Outcome State Fault Refusal :=
  .next (takeRequest ⟨0x1F, tag, payload⟩ restartAnswer s)

/-- R198: the payload is not examined. -/
def unknownAnswer (_payload : List Byte) (s : State) : Answer := refuse .unknown s

def execUnknownRequest (kind tag : Byte) (payload : List Byte) (s : State) :
    Host.Outcome State Fault Refusal :=
  .next (if unknownKind kind then takeRequest ⟨kind, tag, payload⟩ unknownAnswer s else s)

end Sys2Proof.Machine
end

