-- ==== Sys2Proof/Machine/Measure.lean ====
section
/-! DEFINITION. Measurement channels (chapter 2): the scanner, the conversion chain, and what an arrival
brings about at the loop unit, the band tracker and the line unit. -/

namespace Sys2Proof.Machine

/-! ## The conversion chain -/

/-- R33, step 2. -/
def trimmed (c : Channel) (r : Int) : Int := clampTo 0 65535 (r + c.trim)

/-- R33, step 3. -/
def scaledValue (c : Channel) (r : Int) : Int :=
  clamp32 (floorQuot (trimmed c r * c.scale + 32768) 65536 + c.offset)

/-- R34: the mean of a ring that is not empty, rounded half up. -/
def meanOf (ring : List Int) : Int := floorQuot (2 * ring.sum + ring.length) (2 * ring.length)

/-- R35: an averaging restart. -/
def restartAveraging (c : Channel) : Channel := { c with ring := [], lastSecond := [] }

/-- R34 step 1: the window test. -/
def leavesWindow (c : Channel) (v : Int) : Bool :=
  decide (0 < c.avgWindow) && !c.ring.isEmpty && decide (c.avgWindow < |v - meanOf c.ring|)

/-- R34 step 2: a value is entered at the newest end, and the oldest beyond avg_n leave. -/
def pushValue (limit : Nat) (ring : List Int) (v : Int) : List Int :=
  let r := ring ++ [v]
  r.drop (r.length - limit)

/-- R34, R39: step 4, with the restart of a channel that carries the stale mark. -/
def averaged (c : Channel) (v : Int) : Channel :=
  let c1 := if c.stale then restartAveraging c else c
  let c2 := if leavesWindow c1 v then restartAveraging c1 else c1
  { c2 with ring := pushValue c2.avgN.toNat c2.ring v }

/-- R40: the capture test. -/
def captures (speedZero : Bool) (c : Channel) (a : Int) : Bool :=
  speedZero && decide (c.captureBand ≠ 255) && decide (|a - c.zeroCorr| ≤ c.captureBand) &&
    c.lastSecond.length == Config.lastSecondCapacity &&
    decide (|a - c.lastSecond.headD 0| ≤ c.motionBand)

/-- R40: the zero correction after a capture. -/
def capturedZero (c : Channel) (a : Int) : Int :=
  if |a| ≤ c.aperture then a else if a < 0 then -c.aperture else c.aperture

/-- R40: does the capture meet the aperture? -/
def zeroLimited (speedZero : Bool) (c : Channel) (a : Int) : Bool :=
  captures speedZero c a && decide (c.aperture < |a|)

/-- R36, R40: step 5 for a FORCE channel. -/
def zeroed (speedZero : Bool) (c : Channel) (a : Int) : Channel :=
  let c1 := if captures speedZero c a then { c with zeroCorr := capturedZero c a } else c
  { c1 with
    processed := clamp32 (a - c1.zeroCorr)
    lastSecond := pushValue Config.lastSecondCapacity c1.lastSecond a }

/-- R33 to R37: the record of a NORMAL channel after a good conversion. -/
def goodConversion (force speedZero : Bool) (c : Channel) (r : Int) : Channel :=
  let v := scaledValue c r
  let c1 := averaged c v
  let a := meanOf c1.ring
  let c2 := if force then zeroed speedZero c1 a else { c1 with processed := a }
  { c2 with raw := r, scaled := v, status := .ok, stale := false }

/-- R40: a good conversion that raises ZERO_LIMIT. -/
def raisesZeroLimit (force speedZero : Bool) (c : Channel) (r : Int) : Bool :=
  force && zeroLimited speedZero (averaged c (scaledValue c r)) (meanOf (averaged c (scaledValue c r)).ring)

/-- R31: what the raw value tells of the sensor. -/
def detect (r : Int) : ChannelStatus :=
  if Config.openLimit ≤ r then .openCircuit else if r ≤ Config.shortLimit then .shorted else .ok

/-- R32: the record of a NORMAL channel after a conversion that finds the sensor broken. -/
def brokenConversion (c : Channel) (status : ChannelStatus) (r : Int) : Channel :=
  { c with raw := r, status := status, stale := true }

/-! ## The scanner -/

/-- R27: the first channel of the range, from `from` on, that is NORMAL or FORCED. -/
def nextVisit (s : State) (start : Nat) : Option (Fin 16) :=
  (List.finRange 16).find? fun c =>
    decide (start ≤ c.val) && decide (s.meas.first.val ≤ c.val) && decide (c.val ≤ s.meas.last.val) &&
      (s.meas.channels[c]).mode != .disabled

/-- R27: a pass starts; in SINGLE a pass with no visit ends as it starts. -/
def startPass (s : State) : State :=
  let next := nextVisit s 0
  { s with
    meas.converting := next
    meas.scan := if s.meas.scan = .single ∧ next = none then .idle else s.meas.scan }

/-- R27, R29: what the scanner does when the conversion of channel c has completed. -/
def nextConversion (c : Fin 16) (s : State) : State :=
  match s.meas.scan with
  | .halting => { s with meas.converting := none, meas.scan := .idle }
  | .idle => { s with meas.converting := none }
  | .continuous => { s with meas.converting := nextVisit s (c.val + 1) }
  | .single =>
    match nextVisit s (c.val + 1) with
    | none => { s with meas.converting := none, meas.scan := .idle }
    | some d => { s with meas.converting := some d }

/-! ## Arrivals at the consumers -/

/-- R65, R76, R79: a computation of the loop, if it is in AUTO. -/
def computeIfAuto (k : Fin 10) (processed : Int) (s : State) : State :=
  if (s.loops.loops[k]).mode = .auto then modifyLoop k (fun l => computeLoop l processed) s else s

/-- R74, R75, R76: a good or forced arrival at a heat loop. An OVERHEAT is recorded (flag, fault record,
report) before the zone's duty point is handed over to the watches (the model's choice, log 55). -/
def heatArrival (z : Fin 6) (processed : Int) (s : State) : State :=
  let s1 := modifyZone z (lowerLimit (limitTarget s) processed)
    (modifyLoop (zoneLoop z) (fun l => { l with stale := false }) s)
  if (s1.loops.zones[z]).overTemp then
    if processed ≤ overThreshold s1 z - 50 then
      commit s (computeIfAuto (zoneLoop z) processed
        (modifyZone z (fun x => { x with overTemp := false }) s1))
    else commit s s1
  else if overThreshold s1 z < processed then
    commit s (record .overheat (z.val + 1)
      (enforceHold (modifyZone z (fun x => { x with overTemp := true }) s1)))
  else commit s (computeIfAuto (zoneLoop z) processed s1)

/-- R79: the web-loss comparison at a good or forced arrival, with the loop in AUTO. -/
def webLossStep (t : Fin 4) (processed : Int) (s : State) : State :=
  if (s.loops.loops[spanLoop t]).mode = .auto then
    modifySpan t (fun x =>
      if processed < x.lossThreshold then
        match x.timing with
        | some _ => x
        | none => if x.armed then { x with timing := some x.lossTime } else x
      else { x with timing := none, armed := true }) s
  else s

/-- R69, R79, R65: a good or forced arrival at a tension loop. An arrival that brings the loop from HOLD
back to AUTO is an arrival with the loop in AUTO: it already makes the web-loss comparison and may start the
timing (the model's choice, log 49). -/
def tensionArrival (t : Fin 4) (processed : Int) (s : State) : State :=
  let s1 := refreshLoop (modifyLoop (spanLoop t) (fun l => { l with stale := false }) s) (spanLoop t)
  commit s (computeIfAuto (spanLoop t) processed (webLossStep t processed s1))

/-- R69, R74: a held arrival or a stale notice at the loop unit. -/
def loopStale (k : Fin 10) (s : State) : State :=
  commit s (enforceHold (refreshLoop (modifyLoop k (fun l => { l with stale := true }) s) k))

/-- Table 2-1: the zone of a TEMP channel. -/
def channelZone (c : Fin 16) : Option (Fin 6) := asFin 6 c.val

/-- Table 2-1: the loop of a channel, of the TEMP or FORCE kind. -/
def channelLoop (c : Fin 16) : Option (Fin 10) := asFin 10 c.val

/-- Table 2-1: the span of a FORCE channel. -/
def channelSpan (c : Fin 16) : Option (Fin 4) := if c.val < 6 then none else asFin 4 (c.val - 6)

/-- R37, R44: a good or forced arrival reaches its consumers. -/
def freshArrival (c : Fin 16) (processed : Int) (s : State) : State :=
  match channelZone c with
  | some z => checkDwell (integrateDose z processed false (heatArrival z processed s))
  | none =>
    match channelSpan c with
    | some t => tensionArrival t processed s
    | none => s

/-- R32: a held arrival reaches its consumers. -/
def heldArrival (c : Fin 16) (processed : Int) (s : State) : State :=
  match channelLoop c with
  | none => s
  | some k =>
    let s1 := loopStale k s
    match channelZone c with
    | some z => checkDwell (integrateDose z processed true s1)
    | none => s1

/-- R38: a stale notice reaches the loop unit and the line unit. -/
def staleNotice (c : Fin 16) (s : State) : State :=
  match channelLoop c with
  | none => s
  | some k =>
    match channelZone c with
    | some _ => checkDwell (loopStale k s)
    | none => loopStale k s

/-! ## A completed conversion -/

/-- R27: the conversion of channel c has been handled; last_channel then takes the number (log 14). The
scanner goes on, or becomes IDLE, in the same change of state, after the levels that the conversion triggers
(the model's choice, log 47). -/
def visitDone (c : Fin 16) (s : State) : State :=
  commit s { nextConversion c s with meas.lastChannel := some c }

/-- R31 to R37: a completed conversion of a NORMAL channel. A ZERO_LIMIT or SENSOR_FAULT is recorded before
the channel's points are handed over (the model's choice, log 55). -/
def normalConversion (c : Fin 16) (raw : Int) (s : State) : State :=
  let ch := s.meas.channels[c]
  let speedZero := s.line.speed == 0
  match detect raw with
  | .ok =>
    let s1 := modifyChannel c (fun x => goodConversion (isForceChannel c) speedZero x raw) s
    let s2 := if raisesZeroLimit (isForceChannel c) speedZero ch raw then record .zeroLimit c.val s1
      else s1
    visitDone c (freshArrival c (s2.meas.channels[c]).processed (commitArrival c s s2))
  | status =>
    let s1 := modifyChannel c (fun x => brokenConversion x status raw) s
    let s2 := if ch.status = status then s1 else record .sensorFault c.val s1
    visitDone c (heldArrival c ch.processed (commitArrival c s s2))

/-- R44: a completed conversion of a FORCED channel is discarded, and the forced value arrives. -/
def forcedConversion (c : Fin 16) (s : State) : State :=
  visitDone c (freshArrival c (s.meas.channels[c]).processed (commitArrival c s s))

/-- R43: a conversion under way on a channel just disabled is discarded. -/
def disabledConversion (c : Fin 16) (s : State) : State :=
  visitDone c s

/-- R27: the conversion under way completes. -/
def completeConversion (raw : Int) (s : State) : State :=
  match s.meas.converting with
  | none => s
  | some c =>
    match (s.meas.channels[c]).mode with
    | .normal => normalConversion c raw s
    | .forced => forcedConversion c s
    | .disabled => disabledConversion c s

/-- R38: the silence timing of a channel expires. -/
def expireSilence (c : Fin 16) (s : State) : State :=
  if (s.meas.channels[c]).silenceRuns then
    staleNotice c (commit s (modifyChannel c (fun x => { x with stale := true }) s))
  else s

/-! ## Channel modes -/

/-- R43: the record of a channel that enters a mode. -/
def enterChannelMode (m : ChannelMode) (c : Channel) : Channel :=
  match m with
  | .forced => { c with mode := .forced, status := .ok, stale := false }
  | .disabled => { c with mode := .disabled, stale := true }
  | .normal => { restartAveraging c with mode := .normal }

/-- R43: a change of channel mode. -/
def changeChannelMode (c : Fin 16) (m : ChannelMode) (s : State) : State :=
  let s1 := commit s (modifyChannel c (enterChannelMode m) s)
  if m = .disabled then staleNotice c s1 else s1

end Sys2Proof.Machine
end

