-- ==== Sys2Proof/Machine/MeasureSteps.lean ====
section
/-! DEFINITION. The commands of the measurement unit and the loop unit: the scanner, the conversions,
SCAN_CMD, CHANNEL_MODE, ZERO (chapter 2), and the timings of chapter 4. -/

namespace Sys2Proof.Machine

/-! ## The scanner's own steps -/

/-- R27: a cycle starts; a pass under way goes on (log 28). -/
def scanCycle (s : State) : State :=
  if s.meas.scan = .continuous ∧ s.meas.converting = none then commit s (startPass s) else s

def execScanCycleExpiry (s : State) : Host.Outcome State Fault Refusal :=
  .next (whenRuns s scanCycle)

def execConversionComplete (raw : BitVec 16) (s : State) : Host.Outcome State Fault Refusal :=
  .next (whenRuns s (completeConversion raw.toNat))

def execSilenceTimingExpiry (channel : Fin 16) (s : State) : Host.Outcome State Fault Refusal :=
  .next (whenRuns s (expireSilence channel))

/-! ## SCAN_CMD -/

/-- R200: the payload of SCAN_CMD is one byte, or four for CONFIGURE (log 23). -/
def scanLength (payload : List Byte) : Nat := if byteAt payload 0 = 3 then 4 else 1

/-- R28, checks 1 and 2. -/
def scanCommand (act : List Byte → State → Answer) (payload : List Byte) (s : State) : Answer :=
  withLength (scanLength payload) payload s
    (if s.line.mode ≠ .off then refuse .mode s
     else if 4 ≤ byteAt payload 0 then refuse .range s
     else act payload s)

/-- R28: the scanner enters a state and its first pass starts at once. -/
def enterScan (state : ScanState) (s : State) : State :=
  startPass { s with meas.scan := state }

/-- R28: CONTINUOUS or SINGLE. -/
def scanStartAnswer (state : ScanState) (_payload : List Byte) (s : State) : Answer :=
  if s.meas.scan = .idle then ⟨commit s (enterScan state s), .ok, []⟩ else refuse .busy s

/-- R29. -/
def haltScan (s : State) : State :=
  match s.meas.scan with
  | .continuous | .single =>
    match s.meas.converting with
    | some _ => { s with meas.scan := .halting }
    | none => { s with meas.scan := .idle }
  | .idle | .halting => s

def scanStopAnswer (_payload : List Byte) (s : State) : Answer := ⟨commit s (haltScan s), .ok, []⟩

/-- R28, check 4: the range and the sample time, if they are allowed. -/
def scanRange (payload : List Byte) : Option (Fin 16 × Fin 16 × Nat) :=
  match asFin 16 (byteAt payload 1), asFin 16 (byteAt payload 2) with
  | some first, some last =>
    if first ≤ last ∧ 1 ≤ byteAt payload 3 ∧ byteAt payload 3 ≤ 8 then
      some (first, last, byteAt payload 3)
    else none
  | _, _ => none

/-- R28: CONFIGURE. -/
def scanConfigureAnswer (payload : List Byte) (s : State) : Answer :=
  if s.meas.scan = .idle then
    match scanRange payload with
    | some (first, last, time) =>
      ⟨commit s { s with meas.first := first, meas.last := last, meas.sampleTime := time }, .ok, []⟩
    | none => refuse .range s
  else refuse .busy s

def execScanCmdContinuous (tag : Byte) (payload : List Byte) (s : State) :
    Host.Outcome State Fault Refusal :=
  .next (takeRow 4 0 ⟨0x11, tag, payload⟩ (scanCommand (scanStartAnswer .continuous)) s)

def execScanCmdSingle (tag : Byte) (payload : List Byte) (s : State) :
    Host.Outcome State Fault Refusal :=
  .next (takeRow 4 1 ⟨0x11, tag, payload⟩ (scanCommand (scanStartAnswer .single)) s)

def execScanCmdStop (tag : Byte) (payload : List Byte) (s : State) :
    Host.Outcome State Fault Refusal :=
  .next (takeRow 4 2 ⟨0x11, tag, payload⟩ (scanCommand scanStopAnswer) s)

def execScanCmdConfigure (tag : Byte) (payload : List Byte) (s : State) :
    Host.Outcome State Fault Refusal :=
  .next (takeRow 4 3 ⟨0x11, tag, payload⟩ (scanCommand scanConfigureAnswer) s)

/-! ## CHANNEL_MODE and ZERO -/

/-- R42, check 1. -/
def channelModeAllowed (m : LineMode) : Bool :=
  match m with
  | .off | .warming | .ready | .safe => true
  | .running | .stopping | .threading => false

/-- R42: a channel number and a mode. -/
def channelModeAnswer (payload : List Byte) (s : State) : Answer :=
  withLength 2 payload s
    (if channelModeAllowed s.line.mode = false then refuse .mode s
     else
      match asFin 16 (byteAt payload 0), ChannelMode.ofCode (byteAt payload 1) with
      | some c, some m =>
        if (s.meas.channels[c]).mode = m then ⟨s, .ok, []⟩ else ⟨changeChannelMode c m s, .ok, []⟩
      | _, _ => refuse .range s)

def execChannelMode (tag : Byte) (payload : List Byte) (s : State) :
    Host.Outcome State Fault Refusal :=
  .next (takeRequest ⟨0x12, tag, payload⟩ channelModeAnswer s)

/-- R41: one channel number. -/
def zeroAnswer (payload : List Byte) (s : State) : Answer :=
  withLength 1 payload s
    (match asFin 16 (byteAt payload 0) with
     | none => refuse .range s
     | some c =>
       let ch := s.meas.channels[c]
       if isForceChannel c = false then refuse .range s
       else if ch.mode ≠ .normal ∨ s.line.speed ≠ 0 then refuse .mode s
       else if ch.stale ∨ ch.ring = [] then refuse .state s
       else if ch.aperture < |meanOf ch.ring| then refuse .range s
       else
         ⟨commit s (modifyChannel c (fun x => { x with zeroCorr := meanOf ch.ring }) s), .ok, []⟩)

def execZero (tag : Byte) (payload : List Byte) (s : State) : Host.Outcome State Fault Refusal :=
  .next (takeRequest ⟨0x13, tag, payload⟩ zeroAnswer s)

/-! ## Timings of the loop unit -/

/-- R72, R73: a window ends and the next starts. -/
def execHeaterWindowStart (s : State) : Host.Outcome State Fault Refusal :=
  .next (whenRuns s fun s => commit s (startWindow s))

/-- R72, step 3: the on-time of a zone ends. -/
def onTimeEnds (z : Fin 6) (s : State) : State :=
  match (s.loops.zones[z]).onTime with
  | none => s
  | some _ => modifyZone z (fun x => { x with heaterOn := false, onTime := none }) s

def execHeaterOnTimeEnd (zone : Fin 6) (s : State) : Host.Outcome State Fault Refusal :=
  .next (whenRuns s (onTimeEnds zone))

/-- R79: the web-loss timing of a span expires; the loop is disarmed. -/
def webLossExpired (t : Fin 4) (s : State) : State :=
  match (s.loops.spans[t]).timing with
  | none => s
  | some _ =>
    commit s (record .webLoss (7 + t.val)
      (modifySpan t (fun x => { x with timing := none, armed := false }) s))

def execWebLossExpiry (span : Fin 4) (s : State) : Host.Outcome State Fault Refusal :=
  .next (whenRuns s (webLossExpired span))

end Sys2Proof.Machine
end

