-- ==== Sys2Proof/Machine/PointSteps.lean ====
section
/-! DEFINITION. POINT_READ and POINT_WRITE (R53 to R55). -/

namespace Sys2Proof.Machine

/-- R53: the entry of one number: the number, the value, and OK or NO_SUCH. -/
def readEntry (s : State) (n : Nat) : List Byte :=
  match Point.ofNumber n with
  | some p => enc16 n ++ enc32 (readPoint s p) ++ enc8 Status.ok.code
  | none => enc16 n ++ enc32 0 ++ enc8 Status.noSuch.code

/-- R53: the numbers that a payload lists. -/
def listedNumbers (payload : List Byte) : List Nat :=
  (pieces 2 (payload.length / 2) payload).map leValue

/-- R53, R54: the payload is a whole number of items, at least one and at most `most`. -/
def holdsItems (size most : Nat) (payload : List Byte) : Bool :=
  decide (payload.length % size = 0) && decide (1 ≤ payload.length / size) &&
    decide (payload.length / size ≤ most)

/-- R53. -/
def pointReadAnswer (payload : List Byte) (s : State) : Answer :=
  if holdsItems 2 64 payload then readOut ((listedNumbers payload).flatMap (readEntry s)) s
  else refuse .length s

def execPointRead (tag : Byte) (payload : List Byte) (s : State) :
    Host.Outcome State Fault Refusal :=
  .next (takeRequest ⟨0x02, tag, payload⟩ pointReadAnswer s)

/-- R54: the pairs that a payload lists. -/
def listedPairs (payload : List Byte) : List (Nat × Int) :=
  (pieces 6 (payload.length / 6) payload).map fun p => (wordAt p 0, longAt p 2)

/-- Was the write taken? -/
def Status.taken (st : Status) : Bool := st == .ok || st == .clamped

/-- R6, R93: a taken write of the geometry finds the lots afresh. -/
def followGeometry (n : Nat) (st : Status) (s : State) : State :=
  match Point.ofNumber n with
  | none => s
  | some p => if movesLots p && st.taken then findLotsWithin s else s

/-- R54: one pair, its effect complete before the next. -/
def writePair (s : State) (n : Nat) (v : Int) : State × Status :=
  let r := writeByNumber n v s
  (followGeometry n r.status (publish s r.state), r.status)

/-- R54: the pairs one after another, with their statuses. -/
def writePairs : List (Nat × Int) → State → State × List Status
  | [], s => (s, [])
  | (n, v) :: rest, s =>
    let r := writePair s n v
    let q := writePairs rest r.1
    (q.1, r.2 :: q.2)

/-- R54. -/
def pointWriteAnswer (payload : List Byte) (s : State) : Answer :=
  if holdsItems 6 32 payload then
    let r := writePairs (listedPairs payload) s
    ⟨settle r.1, .ok, r.2.flatMap fun st => enc8 st.code⟩
  else refuse .length s

def execPointWrite (tag : Byte) (payload : List Byte) (s : State) :
    Host.Outcome State Fault Refusal :=
  .next (takeRequest ⟨0x03, tag, payload⟩ pointWriteAnswer s)

end Sys2Proof.Machine
end

