-- ==== Sys2Proof/Machine/ReactionSteps.lean ====
section
/-! DEFINITION. The commands of the reaction unit: watches, levels and the reaction lock (chapter 9). -/

namespace Sys2Proof.Machine

/-! ## Watches -/

/-- R161: the persistence timing of a watch expires; it runs in TIMING alone. -/
def persistenceEnds (w : Fin 16) (s : State) : State :=
  if (s.react.watches[w]).state = .timing then
    settle (deferOffer (.trip w) (modifyWatch w (fun x => { x with state := .tripped }) s))
  else s

def execWatchPersistenceExpiry (watch : Fin 16) (s : State) : Host.Outcome State Fault Refusal :=
  .next (whenRuns s (persistenceEnds watch))

/-- R162, check 5. -/
def boundsAllowed (c : WatchCond) (lo hi : Int) : Bool :=
  match c with
  | .outside | .inside => decide (lo ≤ hi)
  | .off | .above | .below => true

/-- R162, checks 4 to 6. -/
def watchAllowed (d : WatchDef) : Bool :=
  (Point.ofNumber d.source).isSome && boundsAllowed d.cond d.lo d.hi && decide (0 ≤ d.persist) &&
    decide (d.persist ≤ 60000)

/-- R162, check 3: the definition that a payload carries. -/
def parseWatch (payload : List Byte) : Option WatchDef :=
  (WatchCond.ofCode (byteAt payload 3)).map fun c =>
    { source := wordAt payload 1, cond := c, lo := longAt payload 4, hi := longAt payload 8,
      persist := longAt payload 12 }

/-- The present value of a watch source; a taken definition names a present point. -/
def watchedValue (s : State) (d : WatchDef) : Int :=
  match Point.ofNumber d.source with
  | some p => readPoint s p
  | none => 0

/-- R162: the definition is replaced, and the watch judges its source's present value. -/
def defineWatch (w : Fin 16) (d : WatchDef) (s : State) : State :=
  judgeWatch w (watchedValue s d) (modifyWatch w (fun _ => Watch.ofDef d) s)

/-- R162: watch, source, condition, lo, hi and persistence, 16 bytes. -/
def watchWriteAnswer (payload : List Byte) (s : State) : Answer :=
  withLength 16 payload s
    (match asFin 16 (byteAt payload 0), parseWatch payload with
     | some w, some d =>
       if watchAllowed d then ⟨settle (defineWatch w d s), .ok, []⟩ else refuse .range s
     | _, _ => refuse .range s)

def execWatchWrite (tag : Byte) (payload : List Byte) (s : State) :
    Host.Outcome State Fault Refusal :=
  .next (takeRequest ⟨0x14, tag, payload⟩ watchWriteAnswer s)

/-- R160: the fields of a watch definition. -/
def encWatchDef (d : WatchDef) : List Byte :=
  enc16 d.source ++ enc8 d.cond.code ++ enc32 d.lo ++ enc32 d.hi ++ enc32 d.persist

/-- R162: the definition and the state. -/
def encWatch (x : Watch) : List Byte := encWatchDef x.defn ++ enc8 x.state.code

def watchReadAnswer (payload : List Byte) (s : State) : Answer :=
  withLength 1 payload s
    (match asFin 16 (byteAt payload 0) with
     | none => refuse .range s
     | some w => readOut (encWatch s.react.watches[w]) s)

def execWatchRead (tag : Byte) (payload : List Byte) (s : State) :
    Host.Outcome State Fault Refusal :=
  .next (takeRequest ⟨0x15, tag, payload⟩ watchReadAnswer s)

/-! ## Level definitions -/

/-- R57: a point of the SETTING class. -/
def isSetting (n : Nat) : Bool := (Point.ofNumber n).map Point.cls == some PointClass.setting

/-- R178, check 5. -/
def actionAllowed (l : Fin 16) (a : Action) : Bool :=
  match a with
  | .set dest _ => isSetting dest
  | .copy dest source => isSetting dest && (Point.ofNumber source).isSome
  | .ramp t r => decide (0 ≤ t) && decide (t ≤ 2000) && decide (1 ≤ r) && decide (r ≤ 500)
  | .safe => l.val == 0
  | .lift | .stop | .holdHeat | .beacon | .report => true

/-- R178, check 6. -/
def fixedParts (l : Fin 16) (d : LevelDef) : Bool :=
  l.val != 0 || (d.enable && decide (d.actions = [.safe, .report]))

/-- R178, checks 5 and 6, with the length of check 1. -/
def levelAllowed (l : Fin 16) (d : LevelDef) : Bool :=
  decide (d.actions.length ≤ 4) && d.actions.all (actionAllowed l) && fixedParts l d

/-- R178, checks 3 to 5: the definition that fields spell; `none` is RANGE. -/
def levelDefOf (trigger : Option Trigger) (enable : Nat) (actions : List (Option Action)) :
    Option LevelDef :=
  match trigger with
  | none => none
  | some t =>
    if 1 < enable then none
    else if actions.all Option.isSome then
      some { trigger := t, enable := enable == 1, actions := actions.filterMap id }
    else none

/-- R178, check 1: the action list, if the payload holds exactly the fields (log 22). -/
def levelActions (payload : List Byte) : Option (List (Option Action)) :=
  if payload.length < 5 ∨ 4 < byteAt payload 4 then none
  else parseActions (byteAt payload 4) (payload.drop 5)

/-- R178: the definition replaced; pending is cleared and the cause absent. -/
def defineLevel (l : Fin 16) (d : LevelDef) (s : State) : State :=
  modifyLevel l (fun _ => Level.ofDef d) s

/-- R178, checks 5 to 7. -/
def judgeLevel (l : Fin 16) (d : LevelDef) (s : State) : Answer :=
  if levelAllowed l d = false then refuse .range s
  else if levelState s l = .running ∨ levelState s l = .waiting then refuse .busy s
  else ⟨defineLevel l d s, .ok, []⟩

/-- R178: level, trigger, enable flag and action list. -/
def levelWriteAnswer (payload : List Byte) (s : State) : Answer :=
  match levelActions payload with
  | none => refuse .length s
  | some actions =>
    match asFin 16 (byteAt payload 0),
      levelDefOf (parseTrigger (byteAt payload 1) (byteAt payload 2)) (byteAt payload 3) actions with
    | some l, some d => judgeLevel l d s
    | _, _ => refuse .range s

def execLevelWrite (tag : Byte) (payload : List Byte) (s : State) :
    Host.Outcome State Fault Refusal :=
  .next (takeRequest ⟨0x16, tag, payload⟩ levelWriteAnswer s)

/-- R180. -/
def encLevel (s : State) (l : Fin 16) : List Byte :=
  let x := s.react.levels[l]
  encTrigger x.defn.trigger ++ encFlag x.defn.enable ++ encFlag x.pending ++
    enc8 (levelState s l).code ++ encOption encCause x.cause ++ encActions x.defn.actions ++
    encOption enc8 x.runPos ++ encOption encCause x.runCause

def levelReadAnswer (payload : List Byte) (s : State) : Answer :=
  withLength 1 payload s
    (match asFin 16 (byteAt payload 0) with
     | none => refuse .range s
     | some l => readOut (encLevel s l) s)

def execLevelRead (tag : Byte) (payload : List Byte) (s : State) :
    Host.Outcome State Fault Refusal :=
  .next (takeRequest ⟨0x17, tag, payload⟩ levelReadAnswer s)

/-! ## LEVEL_CMD -/

/-- An owner's event that an auction follows: the changed points are handed over, the auction is held,
and the offers it left are taken. -/
def commitAuction (old new : State) : State := settle (auction (publish old new))

/-- R179, ENABLE. -/
def enableLevel (l : Fin 16) (s : State) : State :=
  if (s.react.levels[l]).defn.enable then s
  else commitAuction s (modifyLevel l (fun x => { x with defn.enable := true }) s)

/-- R179, DISABLE of a level other than 0, by the state it holds. -/
def disableLevel (l : Fin 16) (s : State) : State :=
  match levelState s l with
  | .running =>
    let s1 := abandonAction s
    let s2 := modifyLevel l (fun x =>
      { x with defn.enable := false, pending := false, cause := none, runPos := none,
               runCause := none }) s1
    commitAuction s { s2 with react.executor := none }
  | .waiting | .armed =>
    modifyLevel l (fun x => { x with defn.enable := false, runPos := none, runCause := none }) s
  | .dormant | .posted => s

/-- R179, FIRE. -/
def fireLevel (l : Fin 16) (s : State) : State :=
  commitAuction s (setPending (fun m => m == l) .fire s)

/-- R177, LOCK: a level other than 0 that holds the executor is suspended. The points that the suspension
changes are handed over before the reaction lock (the model's choice, log 54). -/
def vacateForLock (s : State) : State :=
  match s.react.executor with
  | none => s
  | some m => if m.val = 0 then s else suspend s

/-- R177, LOCK. -/
def lockReactions (s : State) : State :=
  if s.react.lock then s
  else commitAuction s { vacateForLock s with react.lock := true }

/-- R177, UNLOCK. -/
def unlockReactions (s : State) : State :=
  if s.react.lock then commitAuction s { s with react.lock := false } else s

/-- R179, R200: an operation byte and a level byte (log 23). -/
def levelCommand (act : List Byte → State → Answer) (payload : List Byte) (s : State) : Answer :=
  withLength 2 payload s (if byteAt payload 0 < 5 then act payload s else refuse .range s)

/-- R179: the operations that name a level. -/
def onNamedLevel (act : Fin 16 → State → Answer) (payload : List Byte) (s : State) : Answer :=
  match asFin 16 (byteAt payload 1) with
  | none => refuse .range s
  | some l => act l s

def enableAnswer (l : Fin 16) (s : State) : Answer := ⟨enableLevel l s, .ok, []⟩

def disableAnswer (l : Fin 16) (s : State) : Answer :=
  if l.val = 0 then refuse .range s else ⟨disableLevel l s, .ok, []⟩

def fireAnswer (l : Fin 16) (s : State) : Answer := ⟨fireLevel l s, .ok, []⟩

def lockAnswer (_payload : List Byte) (s : State) : Answer := ⟨lockReactions s, .ok, []⟩

def unlockAnswer (_payload : List Byte) (s : State) : Answer := ⟨unlockReactions s, .ok, []⟩

def execLevelCmdEnable (tag : Byte) (payload : List Byte) (s : State) :
    Host.Outcome State Fault Refusal :=
  .next (takeRow 5 0 ⟨0x18, tag, payload⟩ (levelCommand (onNamedLevel enableAnswer)) s)

def execLevelCmdDisable (tag : Byte) (payload : List Byte) (s : State) :
    Host.Outcome State Fault Refusal :=
  .next (takeRow 5 1 ⟨0x18, tag, payload⟩ (levelCommand (onNamedLevel disableAnswer)) s)

def execLevelCmdFire (tag : Byte) (payload : List Byte) (s : State) :
    Host.Outcome State Fault Refusal :=
  .next (takeRow 5 2 ⟨0x18, tag, payload⟩ (levelCommand (onNamedLevel fireAnswer)) s)

def execLevelCmdLock (tag : Byte) (payload : List Byte) (s : State) :
    Host.Outcome State Fault Refusal :=
  .next (takeRow 5 3 ⟨0x18, tag, payload⟩ (levelCommand lockAnswer) s)

def execLevelCmdUnlock (tag : Byte) (payload : List Byte) (s : State) :
    Host.Outcome State Fault Refusal :=
  .next (takeRow 5 4 ⟨0x18, tag, payload⟩ (levelCommand unlockAnswer) s)

end Sys2Proof.Machine
end

