-- ==== Sys2Proof/Machine/Start.lean ====
section
/-! DEFINITION. The settings store (R208, R209), what a reset takes from it (R60 to R62, R97, R181, R186),
and the start of the part (R205 to R207). -/

namespace Sys2Proof.Machine

/-! ## The contents of an image -/

/-- R61: is the point kept in the settings store? -/
def isStored (p : Point) : Bool :=
  match p with
  | .loopMode _ | .loopOutput _ => false
  | p => p.cls == .setting || p.cls == .guarded

/-- R61: the stored points, in the order of their numbers. -/
def storedPoints : List Point := ((List.range 368).filterMap Point.ofNumber).filter isStored

/-- R61, R98, R181, R186: the contents that a taken STORE captures. -/
def captureContents (s : State) : Contents where
  points := storedPoints.map fun p => (p.number, readPoint s p)
  colour := s.profiles.colour
  fabric := s.profiles.fabric
  watches := tab fun w => (s.react.watches[w]).defn
  levels := tab fun l => (s.react.levels[l]).defn
  mask := s.events.mask

/-! ## The image places -/

/-- The bytes of a level definition in an image. -/
def encLevelDef (d : LevelDef) : List Byte :=
  encTrigger d.trigger ++ encFlag d.enable ++ encActions d.actions

/-- The bytes of the contents of an image: R208 names the contents and no layout, so the fields stand in
the encodings of R200 and in the order of R61, R98, R181 and R186 (the model's choice, log 25). -/
def encContents (c : Contents) : List Byte :=
  (c.points.flatMap fun p => enc16 p.1 ++ enc32 p.2) ++
    encTable (encOption fun p => encName p.name ++ encColour p) c.colour ++
    encTable (encOption fun p => encName p.name ++ encFabric p) c.fabric ++
    encTable encWatchDef c.watches ++ encTable encLevelDef c.levels ++ encSet c.mask

/-- R208: the check value of an image, the CRC of R195 over the generation number and the contents. -/
def imageCheck (generation : Nat) (c : Contents) : BitVec 16 :=
  crc (leBytes 4 generation ++ encContents c)

/-- R208: an image is valid when its check agrees with its contents. -/
def Place.valid (p : Place) : Option (Nat × Contents) :=
  match p with
  | .image g c check => if check = imageCheck g c then some (g, c) else none
  | .blank => none

/-- R208: does generation h follow generation g? -/
def follows (h g : Nat) : Bool := h == g + 1 || (g == Config.lastGeneration && h == 1)

/-- R208: the newer of two valid generations; equal ones give the first place (log 25). -/
def newerPlace (g0 g1 : Nat) : Fin 2 :=
  if follows g0 g1 then 0 else if follows g1 g0 then 1 else if g0 < g1 then 1 else 0

/-- R208: the current image. -/
def currentPlace (places : Vector Place 2) : Option (Fin 2) :=
  match (places[(0 : Fin 2)]).valid, (places[(1 : Fin 2)]).valid with
  | some (g0, _), some (g1, _) => some (newerPlace g0 g1)
  | some _, none => some 0
  | none, some _ => some 1
  | none, none => none

/-- R208: the contents that the start takes its values from. -/
def currentContents (places : Vector Place 2) : Option Contents :=
  (currentPlace places).bind fun i => (places[i]).valid.map Prod.snd

/-! ## Loading -/

/-- R62: a stored point is taken as a write takes it; a refused one keeps its default. -/
def loadPoint (s : State) (item : Nat × Int) : State :=
  match Point.ofNumber item.1 with
  | none => s
  | some p => if isStored p then (settingWrite p item.2 s).state else s

/-- R181. -/
def loadWatch (d : WatchDef) : WatchDef := if watchAllowed d then d else WatchDef.factory

/-- R181. -/
def loadLevel (l : Fin 16) (d : LevelDef) : LevelDef :=
  if levelAllowed l d then d else LevelDef.factory l

/-- R62, R97, R181, R186: the blocks take their values from the current image, the points in the order of
their numbers (the model's choice where two bounds cross, log 39). -/
def loadContents (c : Contents) (s : State) : State :=
  let s1 := c.points.foldl loadPoint s
  { s1 with
    profiles.colour := tab fun k => (c.colour[k]).map loadColour
    profiles.fabric := tab fun k => (c.fabric[k]).map loadFabric
    react.watches := tab fun w => Watch.ofDef (loadWatch c.watches[w])
    react.levels := tab fun l => Level.ofDef (loadLevel l c.levels[l])
    events.mask := c.mask }

/-- R82: the output of a loop after a reset, with the loaded bounds. -/
def resetOutput (l : LoopRec) : LoopRec :=
  { l with u := clampTo l.outMin l.outMax 0, i := 256 * clampTo l.outMin l.outMax 0 }

/-- R81, R82, R83: what the loaded settings decide. -/
def applyLoaded (s : State) : State :=
  { s with
    loops.loops := tab fun k => resetOutput s.loops.loops[k]
    loops.outputs := tab fun n => { s.loops.outputs[n] with counts := countsFor s.loops.outputs[n] 0 }
    loops.windowLength := s.loops.heaterWindow }

/-! ## Starts -/

/-- R205, R206, R192: every block at its reset state with the factory values; the settings store's
places, the pins and the queue are kept, and what the start is told is set. -/
def blankStart (cause : StartCause) (prior : Option LineMode) (fault : FaultRecord) (s : State) :
    State :=
  { State.reset with
    pins := s.pins
    events := { EventUnit.reset with fault := fault }
    link := { Link.reset with cause := cause, priorMode := prior, straps := s.pins.straps }
    nvm := { places := s.nvm.places, current := none, writing := none }
    pending := s.pending }

/-- R206, steps 2 and 3: the settings store is read and the blocks take its values. -/
def loadStore (s : State) : State :=
  match currentContents s.nvm.places with
  | none => s
  | some c =>
    let s1 := applyLoaded (loadContents c s)
    { s1 with link.storeState := .loaded, nvm.current := currentPlace s.nvm.places }

/-- R23: an ESTOP input found active at a start counts as becoming active. -/
def takeEstop (s : State) : State :=
  if s.pins.estop then estopPressed { s with pins.estop := false } else s

/-- R206: a start of the part. -/
def startPart (cause : StartCause) (prior : Option LineMode) (fault : FaultRecord) (s : State) :
    State :=
  takeEstop (loadStore (blankStart cause prior fault s))

/-- R205: the part held in reset: all work is lost (log 18). -/
def holdInReset (prior : Option LineMode) (fault : FaultRecord) (s : State) : State :=
  blankStart s.link.cause prior fault s

/-! ## STORE -/

/-- R209: the place that does not hold the current image. -/
def storeTarget (s : State) : Fin 2 :=
  match s.nvm.current with
  | none => 0
  | some i => if i = 0 then 1 else 0

/-- The generation of the image at a place. -/
def Place.generation (p : Place) : Nat :=
  match p with
  | .blank => 0
  | .image g _ _ => g

/-- R209: one more than the current image's generation; 1 when there is none or it is the last. -/
def nextGeneration (s : State) : Nat :=
  match s.nvm.current with
  | none => 1
  | some i =>
    if (s.nvm.places[i]).generation = Config.lastGeneration then 1
    else (s.nvm.places[i]).generation + 1

/-- R209: the image that a STORE writes, its check not yet agreeing (the failing value is the model's
choice, log 25). -/
def unfinishedImage (generation : Nat) (c : Contents) : Place :=
  .image generation c (~~~ imageCheck generation c)

/-- R209: the write begins; until it ends the place holds an image whose check fails. -/
def beginStore (s : State) : State :=
  { s with
    nvm.places := upd s.nvm.places (storeTarget s)
      (unfinishedImage (nextGeneration s) (captureContents s))
    nvm.writing := some (storeTarget s) }

/-- R209. -/
def storeAnswer (payload : List Byte) (s : State) : Answer :=
  withLength 0 payload s
    (if s.line.mode ≠ .off then refuse .mode s
     else if storeBusy s then refuse .busy s
     else ⟨beginStore s, .ok, []⟩)

/-- The image at a place, its check now agreeing. -/
def Place.confirmed (p : Place) : Place :=
  match p with
  | .blank => .blank
  | .image g c _ => .image g c (imageCheck g c)

/-- R209: the write ends, and the read-back is tested. -/
def endStore (agrees : Bool) (s : State) : State :=
  match s.nvm.writing with
  | none => s
  | some i =>
    if agrees then
      commit s (record .storeDone 0
        { s with
          nvm.places := upd s.nvm.places i (s.nvm.places[i]).confirmed
          nvm.current := some i
          nvm.writing := none })
    else commit s (record .storeFail 0 { s with nvm.writing := none })

/-! ## Transmitter -/

/-- R207: the reply of the RESTART that was taken. -/
def isRestartReply (f : Frame) : Bool := f.kind == 0x9F && f.payload == enc8 Status.ok.code

end Sys2Proof.Machine
end

