-- ==== Sys2Proof/Machine/StartSteps.lean ====
section
/-! DEFINITION. The commands of power, reset and the settings store (chapter 11). -/

namespace Sys2Proof.Machine

/-- R205, R206: a cold start. With the reset line active the part stays held (log 18). -/
def powerOn (straps : BitVec 2) (s : State) : State :=
  let s1 := { s with pins.powered := true, pins.straps := straps }
  if s.pins.resetActive then holdInReset none FaultRecord.empty s1
  else startPart .cold none FaultRecord.empty s1

def execPowerOn (straps : BitVec 2) (s : State) : Host.Outcome State Fault Refusal :=
  .next (powerOn straps s)

/-- R205: power is lost: nothing but the settings store is kept. -/
def execPowerLoss (s : State) : Host.Outcome State Fault Refusal :=
  .next (holdInReset none FaultRecord.empty { s with pins.powered := false })

/-- R205: the reset line becomes active: all work ends, the line mode standing is handed over, and
the fault record is kept. -/
def resetActivated (s : State) : State :=
  if s.pins.resetActive then s
  else
    let s1 := { s with pins.resetActive := true }
    if s.pins.powered then holdInReset (some s.line.mode) s.events.fault s1 else s1

def execResetLineActive (s : State) : Host.Outcome State Fault Refusal :=
  .next (resetActivated s)

/-- R205, R206: the release of the reset line is a warm start. After a POWER_ON made with the reset line
active no mode stood at the reset, and the prior mode is absent (the model's choice, log 45). -/
def resetReleased (straps : BitVec 2) (s : State) : State :=
  if s.pins.resetActive then
    let s1 := { s with pins.resetActive := false, pins.straps := straps }
    if s.pins.powered then startPart .warm s.link.priorMode s.events.fault s1 else s1
  else s

def execResetLineRelease (straps : BitVec 2) (s : State) : Host.Outcome State Fault Refusal :=
  .next (resetReleased straps s)

def execStoreWriteComplete (agrees : Bool) (s : State) : Host.Outcome State Fault Refusal :=
  .next (whenRuns s (endStore agrees))

def execStore (tag : Byte) (payload : List Byte) (s : State) : Host.Outcome State Fault Refusal :=
  .next (takeRequest ⟨0x1E, tag, payload⟩ storeAnswer s)

end Sys2Proof.Machine
end

