-- ==== Sys2Proof/Machine/Requests.lean ====
section
/-! DEFINITION. How the link takes the frames that wait in its input buffer (R197): the command that a frame
is, the owner's answer to it, and the meanings that can let the link take one: bytes received and the
transmitter's end. -/

namespace Sys2Proof.Machine

/-! ## The command that a frame is -/

/-- R200: the row of LINE_CMD that the command byte selects; a payload that selects none is put on the first
row, as any row answers it alike (log 23). -/
def lineCmdOf (tag : Byte) (payload : List Byte) : Instr :=
  match byteAt payload 0 with
  | 1 => .lineCmdCool tag payload
  | 2 => .lineCmdRun tag payload
  | 3 => .lineCmdStop tag payload
  | 4 => .lineCmdThread tag payload
  | 5 => .lineCmdClear tag payload
  | _ => .lineCmdHeat tag payload

/-- R200: the row of SCAN_CMD, as `lineCmdOf`. -/
def scanCmdOf (tag : Byte) (payload : List Byte) : Instr :=
  match byteAt payload 0 with
  | 1 => .scanCmdSingle tag payload
  | 2 => .scanCmdStop tag payload
  | 3 => .scanCmdConfigure tag payload
  | _ => .scanCmdContinuous tag payload

/-- R200: the row of LEVEL_CMD, as `lineCmdOf`. -/
def levelCmdOf (tag : Byte) (payload : List Byte) : Instr :=
  match byteAt payload 0 with
  | 1 => .levelCmdDisable tag payload
  | 2 => .levelCmdFire tag payload
  | 3 => .levelCmdLock tag payload
  | 4 => .levelCmdUnlock tag payload
  | _ => .levelCmdEnable tag payload

/-- Table 11-3, R198: the command that a valid frame asks for. -/
def requestOf (f : Frame) : Instr :=
  match f.kind.toNat with
  | 0x01 => .hello f.tag f.payload
  | 0x02 => .pointRead f.tag f.payload
  | 0x03 => .pointWrite f.tag f.payload
  | 0x04 => lineCmdOf f.tag f.payload
  | 0x05 => .lot f.tag f.payload
  | 0x06 => .profileWrite f.tag f.payload
  | 0x07 => .profileRead f.tag f.payload
  | 0x08 => .profileErase f.tag f.payload
  | 0x09 => .ticketReq f.tag f.payload
  | 0x0A => .bandStart f.tag f.payload
  | 0x0B => .bandCancel f.tag f.payload
  | 0x0C => .bandVoid f.tag f.payload
  | 0x0D => .bandRead f.tag f.payload
  | 0x0E => .queueRead f.tag f.payload
  | 0x0F => .historyRead f.tag f.payload
  | 0x10 => .historyClear f.tag f.payload
  | 0x11 => scanCmdOf f.tag f.payload
  | 0x12 => .channelMode f.tag f.payload
  | 0x13 => .zero f.tag f.payload
  | 0x14 => .watchWrite f.tag f.payload
  | 0x15 => .watchRead f.tag f.payload
  | 0x16 => .levelWrite f.tag f.payload
  | 0x17 => .levelRead f.tag f.payload
  | 0x18 => levelCmdOf f.tag f.payload
  | 0x19 => .eventsRead f.tag f.payload
  | 0x1A => .eventsClear f.tag f.payload
  | 0x1B => .maskWrite f.tag f.payload
  | 0x1C => .faultRead f.tag f.payload
  | 0x1D => .faultClear f.tag f.payload
  | 0x1E => .store f.tag f.payload
  | 0x1F => .restart f.tag f.payload
  | _ => .unknownRequest f.kind f.tag f.payload

/-- R197, R198: the answer of the owner of a request; a command that is no request stands for no frame. -/
def answerOf (c : Instr) : List Byte → State → Answer :=
  match c with
  | .hello _ _ => helloAnswer
  | .pointRead _ _ => pointReadAnswer
  | .pointWrite _ _ => pointWriteAnswer
  | .lot _ _ => lotAnswer
  | .profileWrite _ _ => profileWriteAnswer
  | .profileRead _ _ => profileReadAnswer
  | .profileErase _ _ => profileEraseAnswer
  | .ticketReq _ _ => ticketReqAnswer
  | .bandStart _ _ => bandStartAnswer
  | .bandCancel _ _ => bandCancelAnswer
  | .bandVoid _ _ => bandVoidAnswer
  | .bandRead _ _ => bandReadAnswer
  | .queueRead _ _ => queueReadAnswer
  | .historyRead _ _ => historyReadAnswer
  | .historyClear _ _ => historyClearAnswer
  | .channelMode _ _ => channelModeAnswer
  | .zero _ _ => zeroAnswer
  | .watchWrite _ _ => watchWriteAnswer
  | .watchRead _ _ => watchReadAnswer
  | .levelWrite _ _ => levelWriteAnswer
  | .levelRead _ _ => levelReadAnswer
  | .eventsRead _ _ => eventsReadAnswer
  | .eventsClear _ _ => eventsClearAnswer
  | .maskWrite _ _ => maskWriteAnswer
  | .faultRead _ _ => faultReadAnswer
  | .faultClear _ _ => faultClearAnswer
  | .store _ _ => storeAnswer
  | .restart _ _ => restartAnswer
  | .lineCmdHeat _ _ => lineCommand heatAnswer
  | .lineCmdCool _ _ => lineCommand coolAnswer
  | .lineCmdRun _ _ => lineCommand runAnswer
  | .lineCmdStop _ _ => lineCommand stopAnswer
  | .lineCmdThread _ _ => lineCommand threadAnswer
  | .lineCmdClear _ _ => lineCommand clearAnswer
  | .scanCmdContinuous _ _ => scanCommand (scanStartAnswer .continuous)
  | .scanCmdSingle _ _ => scanCommand (scanStartAnswer .single)
  | .scanCmdStop _ _ => scanCommand scanStopAnswer
  | .scanCmdConfigure _ _ => scanCommand scanConfigureAnswer
  | .levelCmdEnable _ _ => levelCommand (onNamedLevel enableAnswer)
  | .levelCmdDisable _ _ => levelCommand (onNamedLevel disableAnswer)
  | .levelCmdFire _ _ => levelCommand (onNamedLevel fireAnswer)
  | .levelCmdLock _ _ => levelCommand lockAnswer
  | .levelCmdUnlock _ _ => levelCommand unlockAnswer
  | _ => unknownAnswer

/-! ## The link takes the frames that wait -/

/-- R197: a request is taken as its own command takes it. -/
def takeFrame (f : Frame) (s : State) : State := takeRequest f (answerOf (requestOf f)) s

/-- R197: the frames of the buffer, oldest first, are taken one after another while the slot is empty. -/
def serve : List Frame → State → State
  | [], s => s
  | f :: rest, s => if takeable f s then serve rest (takeFrame f s) else s

/-- R197: whenever the reply slot is empty and the buffer holds a frame, the link takes the oldest. -/
def serveBuffer (s : State) : State := serve s.link.buffer s

/-! ## Bytes received -/

/-- R194, R196: the receiver inside a frame, with the bytes gathered so far. -/
def gather (g : List Byte) (s : State) : State :=
  if g.length < 2 then { s with link.receiver := .inside g }
  else if 1024 < gatheredLength g then
    raiseEvent .linkError 2 { s with link.receiver := .hunting }
  else if g.length < gatheredLength g + 6 then { s with link.receiver := .inside g }
  else if checkHolds g then
    serveBuffer (validFrame (gatheredFrame g) { s with link.receiver := .hunting })
  else raiseEvent .linkError 1 { s with link.receiver := .hunting }

/-- R194: one byte received. -/
def receiveByte (s : State) (b : Byte) : State :=
  match s.link.receiver with
  | .hunting => if b = 0xA5 then { s with link.receiver := .inside [] } else s
  | .inside g => gather (g ++ [b]) s

/-- R194: bytes received one after another. -/
def receiveBytes (bytes : List Byte) (s : State) : State := bytes.foldl receiveByte s

/-- R194, R196: the bytes of a frame, up to the one at which it is judged. -/
def execFrameReceived (bytes : List Byte) (s : State) : Host.Outcome State Fault Refusal :=
  .next (whenRuns s (receiveBytes bytes))

/-- R194: one byte, which begins a frame when it is the sync and the receiver is hunting. -/
def execFrameSyncReceived (byte : Byte) (s : State) : Host.Outcome State Fault Refusal :=
  .next (whenRuns s fun s => receiveByte s byte)

/-! ## The transmitter's end -/

/-- R199, R207, R197: the last byte of a frame has been sent; the transmitter chooses the next, and a slot that
it empties lets the link take the oldest frame of the buffer (log 3). -/
def frameSent (s : State) : State :=
  match s.link.sending with
  | none => s
  | some f =>
    if s.link.restarting && isRestartReply f then
      startPart .restart (some s.line.mode) s.events.fault s
    else serveBuffer (transmitNext { s with link.sending := none })

def execTransmitComplete (s : State) : Host.Outcome State Fault Refusal :=
  .next (whenRuns s frameSent)

end Sys2Proof.Machine
end

