-- ==== Sys2Proof/Machine/Dispatch.lean ====
section
/-! DEFINITION. exec: one arm per command. -/

namespace Sys2Proof.Machine

def exec (i : Instr) (s : State) : Host.Outcome State Fault Refusal :=
  match i with
  | .powerOn straps => Sys2Proof.Machine.execPowerOn straps s
  | .resetLineActive => Sys2Proof.Machine.execResetLineActive s
  | .resetLineRelease straps => Sys2Proof.Machine.execResetLineRelease straps s
  | .positionChange delta => Sys2Proof.Machine.execPositionChange delta s
  | .speedPeriodExpiry => Sys2Proof.Machine.execSpeedPeriodExpiry s
  | .warmUpDwellExpiry => Sys2Proof.Machine.execWarmUpDwellExpiry s
  | .nipFbActive => Sys2Proof.Machine.execNipFbActive s
  | .nipFbInactive => Sys2Proof.Machine.execNipFbInactive s
  | .engageTimingExpiry => Sys2Proof.Machine.execEngageTimingExpiry s
  | .liftTimingExpiry => Sys2Proof.Machine.execLiftTimingExpiry s
  | .estopActive => Sys2Proof.Machine.execEstopActive s
  | .estopReleased => Sys2Proof.Machine.execEstopReleased s
  | .guardOpens => Sys2Proof.Machine.execGuardOpens s
  | .guardCloses => Sys2Proof.Machine.execGuardCloses s
  | .scanCycleExpiry => Sys2Proof.Machine.execScanCycleExpiry s
  | .conversionComplete raw => Sys2Proof.Machine.execConversionComplete raw s
  | .silenceTimingExpiry channel => Sys2Proof.Machine.execSilenceTimingExpiry channel s
  | .heaterWindowStart => Sys2Proof.Machine.execHeaterWindowStart s
  | .heaterOnTimeEnd zone => Sys2Proof.Machine.execHeaterOnTimeEnd zone s
  | .webLossExpiry span => Sys2Proof.Machine.execWebLossExpiry span s
  | .watchPersistenceExpiry watch => Sys2Proof.Machine.execWatchPersistenceExpiry watch s
  | .linkSilenceExpiry => Sys2Proof.Machine.execLinkSilenceExpiry s
  | .ticketCompletion => Sys2Proof.Machine.execTicketCompletion s
  | .storeWriteComplete agrees => Sys2Proof.Machine.execStoreWriteComplete agrees s
  | .frameReceived bytes => Sys2Proof.Machine.execFrameReceived bytes s
  | .interbyteGapTimeout => Sys2Proof.Machine.execInterbyteGapTimeout s
  | .transmitComplete => Sys2Proof.Machine.execTransmitComplete s
  | .hello tag payload => Sys2Proof.Machine.execHello tag payload s
  | .pointRead tag payload => Sys2Proof.Machine.execPointRead tag payload s
  | .pointWrite tag payload => Sys2Proof.Machine.execPointWrite tag payload s
  | .lineCmdHeat tag payload => Sys2Proof.Machine.execLineCmdHeat tag payload s
  | .lineCmdCool tag payload => Sys2Proof.Machine.execLineCmdCool tag payload s
  | .lineCmdRun tag payload => Sys2Proof.Machine.execLineCmdRun tag payload s
  | .lineCmdStop tag payload => Sys2Proof.Machine.execLineCmdStop tag payload s
  | .lineCmdThread tag payload => Sys2Proof.Machine.execLineCmdThread tag payload s
  | .lineCmdClear tag payload => Sys2Proof.Machine.execLineCmdClear tag payload s
  | .lot tag payload => Sys2Proof.Machine.execLot tag payload s
  | .profileWrite tag payload => Sys2Proof.Machine.execProfileWrite tag payload s
  | .profileRead tag payload => Sys2Proof.Machine.execProfileRead tag payload s
  | .profileErase tag payload => Sys2Proof.Machine.execProfileErase tag payload s
  | .ticketReq tag payload => Sys2Proof.Machine.execTicketReq tag payload s
  | .bandStart tag payload => Sys2Proof.Machine.execBandStart tag payload s
  | .bandCancel tag payload => Sys2Proof.Machine.execBandCancel tag payload s
  | .bandVoid tag payload => Sys2Proof.Machine.execBandVoid tag payload s
  | .bandRead tag payload => Sys2Proof.Machine.execBandRead tag payload s
  | .queueRead tag payload => Sys2Proof.Machine.execQueueRead tag payload s
  | .historyRead tag payload => Sys2Proof.Machine.execHistoryRead tag payload s
  | .historyClear tag payload => Sys2Proof.Machine.execHistoryClear tag payload s
  | .scanCmdContinuous tag payload => Sys2Proof.Machine.execScanCmdContinuous tag payload s
  | .scanCmdSingle tag payload => Sys2Proof.Machine.execScanCmdSingle tag payload s
  | .scanCmdStop tag payload => Sys2Proof.Machine.execScanCmdStop tag payload s
  | .scanCmdConfigure tag payload => Sys2Proof.Machine.execScanCmdConfigure tag payload s
  | .channelMode tag payload => Sys2Proof.Machine.execChannelMode tag payload s
  | .zero tag payload => Sys2Proof.Machine.execZero tag payload s
  | .watchWrite tag payload => Sys2Proof.Machine.execWatchWrite tag payload s
  | .watchRead tag payload => Sys2Proof.Machine.execWatchRead tag payload s
  | .levelWrite tag payload => Sys2Proof.Machine.execLevelWrite tag payload s
  | .levelRead tag payload => Sys2Proof.Machine.execLevelRead tag payload s
  | .levelCmdEnable tag payload => Sys2Proof.Machine.execLevelCmdEnable tag payload s
  | .levelCmdDisable tag payload => Sys2Proof.Machine.execLevelCmdDisable tag payload s
  | .levelCmdFire tag payload => Sys2Proof.Machine.execLevelCmdFire tag payload s
  | .levelCmdLock tag payload => Sys2Proof.Machine.execLevelCmdLock tag payload s
  | .levelCmdUnlock tag payload => Sys2Proof.Machine.execLevelCmdUnlock tag payload s
  | .eventsRead tag payload => Sys2Proof.Machine.execEventsRead tag payload s
  | .eventsClear tag payload => Sys2Proof.Machine.execEventsClear tag payload s
  | .maskWrite tag payload => Sys2Proof.Machine.execMaskWrite tag payload s
  | .faultRead tag payload => Sys2Proof.Machine.execFaultRead tag payload s
  | .faultClear tag payload => Sys2Proof.Machine.execFaultClear tag payload s
  | .store tag payload => Sys2Proof.Machine.execStore tag payload s
  | .restart tag payload => Sys2Proof.Machine.execRestart tag payload s
  | .unknownRequest kind tag payload => Sys2Proof.Machine.execUnknownRequest kind tag payload s
  | .quadratureEdge forward => Sys2Proof.Machine.execQuadratureEdge forward s
  | .frameSyncReceived byte => Sys2Proof.Machine.execFrameSyncReceived byte s
  | .powerLoss => Sys2Proof.Machine.execPowerLoss s

end Sys2Proof.Machine
end

