-- ==== Sys2Proof/Safety.lean ====
section
/-! DEFINITION. What counts as a safe or well-kept state, and what a part of a step leaves as it was, in
the terms that statements use. -/

namespace Sys2Proof.Machine

/-! ## What reactions leave alone -/

/-- The fields of a channel that the measurement unit alone writes: all but the settings. -/
def Channel.sameMeasured (c d : Channel) : Prop :=
  d.mode = c.mode ∧ d.status = c.status ∧ d.stale = c.stale ∧ d.raw = c.raw ∧ d.scaled = c.scaled ∧
    d.processed = c.processed ∧ d.ring = c.ring ∧ d.lastSecond = c.lastSecond ∧ d.zeroCorr = c.zeroCorr

/-- The GUARDED settings of the line unit (R50) and the motion it has measured. -/
def LineUnit.sameWeb (l m : LineUnit) : Prop :=
  m.count = l.count ∧ m.sample = l.sample ∧ m.position = l.position ∧ m.speed = l.speed ∧
    m.countsPerMm = l.countsPerMm ∧ m.pIn = l.pIn ∧ m.lWrap = l.lWrap ∧
    m.pExitMargin = l.pExitMargin ∧ m.heatLead = l.heatLead ∧ m.vMax = l.vMax

/-- What no hand-over and no reaction (R56, R161, R171 to R176) touches: the pins, the motion and the
GUARDED settings, the measurements, the profiles and lots, the bands and the history, the computation
in flight, the report mask, the settings store, the link's reception, and the queue. -/
structure ReactionFrame (s t : State) : Prop where
  pins : t.pins = s.pins
  web : s.line.sameWeb t.line
  channels : ∀ c : Fin 16, (s.meas.channels[c]).sameMeasured t.meas.channels[c]
  scan : t.meas.scan = s.meas.scan
  first : t.meas.first = s.meas.first
  last : t.meas.last = s.meas.last
  sampleTime : t.meas.sampleTime = s.meas.sampleTime
  converting : t.meas.converting = s.meas.converting
  lastChannel : t.meas.lastChannel = s.meas.lastChannel
  tAbsMax : t.loops.tAbsMax = s.loops.tAbsMax
  windowLength : t.loops.windowLength = s.loops.windowLength
  profiles : t.profiles = s.profiles
  queue : t.bands.queue = s.bands.queue
  idCounter : t.bands.idCounter = s.bands.idCounter
  history : t.bands.history = s.bands.history
  inFlight : t.engine.inFlight = s.engine.inFlight
  lock : t.react.lock = s.react.lock
  mask : t.events.mask = s.events.mask
  receiver : t.link.receiver = s.link.receiver
  buffer : t.link.buffer = s.link.buffer
  restarting : t.link.restarting = s.link.restarting
  cause : t.link.cause = s.link.cause
  priorMode : t.link.priorMode = s.link.priorMode
  storeState : t.link.storeState = s.link.storeState
  straps : t.link.straps = s.link.straps
  nvm : t.nvm = s.nvm
  pending : t.pending = s.pending

/-- What the line unit's own work leaves alone beside `ReactionFrame`: every unit but the line, the
modes and setpoints of the loops with what follows from them, the link, and the events it raises. -/
structure LineFrame (s t : State) : Prop extends ReactionFrame s t where
  meas : t.meas = s.meas
  bands : t.bands = s.bands
  engine : t.engine = s.engine
  outputs : t.loops.outputs = s.loops.outputs
  watches : t.react.watches = s.react.watches
  levels : t.react.levels = s.react.levels
  executor : t.react.executor = s.react.executor
  user : t.user = s.user

/-! ## Commands by what they alone can do -/

/-- R205 to R207: the commands at which the part can start, or be held in reset. -/
def startsPart : Instr → Bool
  | .powerOn _ | .powerLoss | .resetLineActive | .resetLineRelease _ | .transmitComplete => true
  | _ => false

/-- R189, R205: the commands at which the fault record can be lost with the power. -/
def losesFaultRecord : Instr → Bool
  | .powerOn _ | .powerLoss => true
  | _ => false

/-- R191: FAULT_CLEAR. -/
def isFaultClear : Instr → Bool
  | .faultClear _ _ => true
  | _ => false

/-- R85, R88: the requests that write or empty a profile slot. -/
def writesProfiles : Instr → Bool
  | .profileWrite _ _ | .profileErase _ _ => true
  | _ => false

/-- R104: the request that adds a band to the queue. -/
def isTicketReq : Instr → Bool
  | .ticketReq _ _ => true
  | _ => false

/-- R18: LINE_CMD CLEAR. -/
def isLineClear : Instr → Bool
  | .lineCmdClear _ _ => true
  | _ => false

/-! ## The frames that a command can let the link take -/

/-- R194: the bytes gathered so far of the frame that the receiver is inside. -/
def gatheredSoFar (s : State) : List Byte :=
  match s.link.receiver with
  | .hunting => []
  | .inside g => g

/-- R197: the frames that the link may take within a command: those that wait in its input buffer, and, where
the command brings bytes, those whose bytes under the check (R193) it completes. -/
def mayTake (c : Instr) (s : State) (f : Frame) : Prop :=
  match c with
  | .frameReceived bytes => f ∈ s.link.buffer ∨ f.body <:+: gatheredSoFar s ++ bytes
  | .frameSyncReceived b => f ∈ s.link.buffer ∨ f.body <:+: gatheredSoFar s ++ [b]
  | .transmitComplete => f ∈ s.link.buffer
  | _ => False

/-! ## Invariants -/

/-- R23, R74: a zone that is held off, and every zone of a part that does not run, has active duty 0 and
its heater pin off. -/
def HeatersHeld (s : State) : Prop :=
  ∀ z : Fin 6, (heldOff s z = true ∨ s.runs = false) →
    (s.loops.zones[z]).active = 0 ∧ (s.loops.zones[z]).heaterOn = false

/-- R9: the modes in which the web is at rest. -/
def restMode (m : LineMode) : Bool :=
  match m with
  | .off | .warming | .ready | .safe => true
  | .running | .stopping | .threading => false

/-- R7 (Table 3-3), R8, R9, R13, R16: v_max stays in its range; in OFF, WARMING, READY and SAFE the
reference and the target are 0 and FEED is off; ENGAGING is at rest too; STOPPING runs down to 0; a run
phase stands in RUNNING alone; and a RAMP owns the target in RUNNING past ENGAGING or in THREADING alone. -/
structure LineRest (s : State) : Prop where
  vMax : 50 ≤ s.line.vMax ∧ s.line.vMax ≤ 2000
  rest : restMode s.line.mode = true →
    s.line.reference = 0 ∧ s.line.target = 0 ∧ s.line.feed = false
  engaging : s.line.phase = .engaging → s.line.reference = 0 ∧ s.line.target = 0
  stopping : s.line.mode = .stopping → s.line.target = 0
  phase : s.line.mode ≠ .running → s.line.phase = .noPhase
  owner : s.line.owner = .action → rampTakesEffect s = true

/-- R187, R188, R189, R197: what the event unit and the link hold stays within its capacity, and an
empty fault record is empty in every field. -/
structure WithinCapacity (s : State) : Prop where
  reports : s.events.reports.length ≤ 32
  discarded : s.events.discarded ≤ 65535
  buffer : s.link.buffer.length ≤ 4
  fault : s.events.fault.isEmpty = true → s.events.fault = FaultRecord.empty

/-- R197, R199, R207: no frame waits while the reply slot is empty, but for a RESTART that has been taken; and
an idle transmitter has left neither a reply in the slot nor a report in the queue. -/
structure LinkServed (s : State) : Prop where
  served : s.link.slot = none → s.link.restarting = false → s.link.buffer = []
  idle : s.link.sending = none → s.link.slot = none ∧ s.events.reports = []

/-- R99, R104: at most 64 records with distinct ids, at most 4 of them TICKETING. -/
structure QueueKept (s : State) : Prop where
  records : s.bands.queue.length ≤ 64
  ids : (s.bands.queue.map Band.id).Nodup
  ticketing : ticketingCount s ≤ 4

/-- R87: every slot that a queued band or a lot names holds a profile. -/
structure SlotsOccupied (s : State) : Prop where
  colours : ∀ b ∈ s.bands.queue, s.profiles.colour[b.colour] ≠ none
  fabrics : ∀ b ∈ s.bands.queue, s.profiles.fabric[b.fabric] ≠ none
  current : ∀ l, s.profiles.current = some l → s.profiles.fabric[l.fabric] ≠ none
  heat : ∀ l, s.profiles.heat = some l → s.profiles.fabric[l.fabric] ≠ none
  nip : ∀ l, s.profiles.nip = some l → s.profiles.fabric[l.fabric] ≠ none

/-- R134, R135: each lane ring holds at most 8 entries, each with a ratio in 3072..5120. -/
def HistoryKept (s : State) : Prop :=
  ∀ z : Fin 6, (s.bands.history[z]).length ≤ 8 ∧
    ∀ e ∈ s.bands.history[z], 3072 ≤ e.ratio ∧ e.ratio ≤ 5120

/-- R166: while the reaction lock is set, no level but level 0 holds the executor. -/
def LockHonoured (s : State) : Prop :=
  s.react.lock = true → ∀ w, s.react.executor = some w → w.val = 0

end Sys2Proof.Machine
end

