-- ==== Sys2Proof/Certificates/Slice0/Obligations.lean ====
section
/-! DEFINITION. The statements about the model: each docstring names the rules a statement rests on, and
says where a clause is the model's own choice, with its log entry.

Three choices run through many statements. `takeable` and `dequeue`: a request is the oldest frame of the
input buffer, and with an empty buffer the frame is received as it is taken; one that cannot be taken now is
received and waits, as FramesReceived says (log 3). `putReply`: the reply
enters the slot last (log 15). `commit old new`: the points that an owner's event changed are handed over
and the trigger offers it left are taken, in the model's order (log 9, 10, 12, 13); an occurrence recorded in
the event stands before the hand-over, in the set, the record and the report queue (log 55). What `commit` never
touches is `ReactionFrame`, by `commit_frame` of Laws/Frame. -/

section Statements

open Sys2Proof Sys2Proof.Machine

/-! ## The queue of commands -/

/-- The interface: a step takes the command at the front of the queue and runs it on the rest. On an
empty queue it takes the trigger offers left over, of which there are none in an ordinary run (the
model's own, log 10 and 11). -/
def Obligations.StepRunsFrontCommand : Prop :=
  ∀ s : State,
    (∀ c rest, s.pending = c :: rest → step s = exec c { s with pending := rest }) ∧
      (s.pending = [] → step s = .next (settle s)) ∧
      (s.pending = [] → s.react.deferred = [] → step s = .next s)

/-- Every command completes, and none touches the queue of the commands that wait. While the part has no
power or is held in reset, a command that cannot start it changes nothing but its pins (R205; log 2). -/
def Obligations.CommandsCompleteAndKeepQueue : Prop :=
  ∀ (c : Instr) (s : State), ∃ t, exec c s = .next t ∧ t.pending = s.pending ∧
    (s.runs = false → startsPart c = true ∨ t = { s with pins := t.pins })

/-! ## Encoder and speed -/

/-- R3: edges move the count, and the position derived from it is published when it differs. A
POSITION_CHANGE carries the net of the edges since the last one (log 5), and the point is handed over before
the bands and the lots follow it (log 42); a count beyond 64 bits, and in R5 a speed beyond 32, is a free
value (log 6, 7). R5, R7: the expiry of the period publishes the measured speed and keeps the sample, and
then (log 36) steps the reference by ramp_rate, stop_rate or the action's rate, as the rate source says,
toward the target, landing on it. A landing makes a RAMPING line STEADY, ends a STOPPING at 0 in READY with
FEED off and, by lift_on_stop, NIP off (R16), and completes a RAMP that owned the target (R8). R69: the
tension loops follow the reference between HOLD and AUTO. R11: the dwell timing that expires in WARMING
makes the mode READY. -/
def Obligations.EncoderSpeedAndDwell : Prop :=
  (∀ s : State, s.runs = true →
    (∀ forward : Bool, fits64 (s.line.count + (if forward then 1 else -1)) = true →
      exec (.quadratureEdge forward) s =
        .next { s with line.count := s.line.count + (if forward then 1 else -1) }) ∧
    ∀ delta : Int, fits64 (s.line.count + delta) = true →
      let count := s.line.count + delta
      let position := clampTo (-2147483648) 2147483647 (Int.fdiv count s.line.countsPerMm)
      (position = s.line.position →
        exec (.positionChange delta) s = .next { s with line.count := count }) ∧
      (position ≠ s.line.position →
        exec (.positionChange delta) s =
          .next (findLots (trackBands (commit { s with line.count := count }
            { s with line.count := count, line.position := position }))))) ∧
  (∀ s : State, s.runs = true →
    fits32 (Int.fdiv ((s.line.count - s.line.sample) * 100) s.line.countsPerMm) = true →
    ∃ u v, exec .speedPeriodExpiry s = .next (commit u v) ∧
      u = commit s { s with
        line.speed := Int.fdiv ((s.line.count - s.line.sample) * 100) s.line.countsPerMm
        line.sample := s.line.count } ∧
      (let rate : Int :=
        match u.line.rateSource with
        | .rampRate => u.line.rampRate
        | .stopRate => u.line.stopRate
        | .action r => r
      v.line.reference =
        if u.line.reference < u.line.target then min (u.line.reference + rate) u.line.target
        else if u.line.target < u.line.reference then max (u.line.reference - rate) u.line.target
        else u.line.reference) ∧
      v.line.target = u.line.target ∧
      (u.line.reference = u.line.target → v = u) ∧
      (u.line.reference ≠ u.line.target →
        (v.line.reference ≠ u.line.target →
          v.line = { u.line with reference := v.line.reference }) ∧
        (v.line.reference = u.line.target →
          v.line.owner = .line ∧
          (u.line.owner = .action → .actionDone .ramp ∈ v.react.deferred) ∧
          (u.line.mode = .running → u.line.phase = .ramping →
            v.line.mode = .running ∧ v.line.phase = .steady) ∧
          (u.line.mode = .stopping → u.line.target = 0 →
            v.line.mode = .ready ∧ v.line.phase = .noPhase ∧ v.line.feed = false ∧
            (u.line.liftOnStop = 1 → u.line.nip.output = true →
              v.line.nip = if u.pins.nipFb = true then .opening else .opened) ∧
            (u.line.liftOnStop ≠ 1 ∨ u.line.nip.output = false → v.line.nip = u.line.nip) ∧
            hasKind v.events.set .modeChange = true)) ∧
        ∀ x : Fin 4, (u.loops.loops[spanLoop x]).override = none →
          (v.loops.loops[spanLoop x]).mode =
            if v.line.mode = .running ∨ v.line.mode = .stopping ∨ v.line.mode = .threading then
              (if 0 < v.line.reference ∧ (u.loops.loops[spanLoop x]).stale = false then .auto
              else .hold)
            else .off) ∧
      LineFrame u v) ∧
  (∀ s : State, s.runs = true → s.line.mode = .warming → s.line.dwell ≠ none →
    ∃ t, exec .warmUpDwellExpiry s = .next (commit s t) ∧
      t.line = { s.line with mode := .ready, phase := .noPhase, dwell := none } ∧
      hasKind t.events.set .modeChange = true ∧
      (∀ k : Fin 10, k.val < 6 → (s.loops.loops[k]).override = none →
        (t.loops.loops[k]).mode = .auto) ∧
      LineFrame s t)

/-! ## The nip -/

/-- R13, R14: the engage is complete: in ENGAGING the target becomes the nip lot's run speed, clamped to
v_max, with owner LINE and rate source RAMP_RATE; in any other phase nothing changes. R21, Table 1-6: what a
change of NIP_FB and the expiry of a nip timing do, by the nip state. A nip lost in RUNNING raises
NIP_FAULT, which is taken whole with the levels it triggers, and then stops the line if it still runs; an
engage that expires takes NIP_FAULT whole too, and then returns the line to READY if it is still in RUNNING
ENGAGING (the model's choice, log 30). R16: that stop enters STOPPING, which is taken whole, and then ends
if the reference is at 0 (log 30; StopTakenAndEnded). R20: the nip that reaches OPEN reports a LIFT complete
if the level that holds the executor waits on one; the report is taken when the event is over (log 9). The
NIP_FAULT of a lost nip is recorded before its points are handed over (the model's choice, log 55). -/
def Obligations.NipFollowsFeedback : Prop :=
  (∀ s : State,
    (s.line.mode = .running → s.line.phase = .engaging →
      (engageComplete s).line =
        { s.line with
          target := clampTo 0 s.line.vMax (nipRunSpeed s)
          rateSource := .rampRate
          owner := .line
          phase :=
            if clampTo 0 s.line.vMax (nipRunSpeed s) = s.line.reference then .steady else .ramping } ∧
      LineFrame s (engageComplete s)) ∧
    (s.line.mode ≠ .running ∨ s.line.phase ≠ .engaging → engageComplete s = s)) ∧
  (∀ s : State, s.runs = true →
    (s.pins.nipFb = false →
      let s1 := { s with pins.nipFb := true }
      (s.line.nip = .closing →
        exec .nipFbActive s = .next (commit s (engageComplete { s1 with line.nip := .closed }))) ∧
      (s.line.nip = .lost →
        exec .nipFbActive s = .next (commit s { s1 with line.nip := .closed })) ∧
      (s.line.nip = .opened → exec .nipFbActive s = .next (commit s s1))) ∧
    (s.pins.nipFb = true →
      let s1 := { s with pins.nipFb := false }
      (s.line.nip = .closed → s.line.mode ≠ .running →
        exec .nipFbInactive s = .next (commit s { s1 with line.nip := .lost })) ∧
      (s.line.nip = .closed → s.line.mode = .running →
        let u := commit s (record .nipFault 0 { s1 with line.nip := .lost })
        exec .nipFbInactive s = .next (if u.line.mode = .running then stopCommitted u else u)) ∧
      (s.line.nip = .opening →
        exec .nipFbInactive s = .next (commit s (liftDone { s1 with line.nip := .opened }))) ∧
      (s.line.nip = .opened → exec .nipFbInactive s = .next (commit s s1))) ∧
    (s.line.nip = .closing →
      let u := commit s { record .nipFault 0 s with line.nip := .opened }
      exec .engageTimingExpiry s = .next (commit u (failedEngage u)) ∧
      (0 ≤ u.line.vMax → u.line.mode = .running → u.line.phase = .engaging →
        (failedEngage u).line.mode = .ready ∧ (failedEngage u).line.phase = .noPhase ∧
        (failedEngage u).line.feed = false ∧ (failedEngage u).line.target = 0 ∧
        (failedEngage u).line.reference = u.line.reference)) ∧
    (s.line.nip = .opening →
      exec .liftTimingExpiry s =
        .next (commit s (liftDone { record .nipFault 0 s with line.nip := .opened })))) ∧
  (∀ s : State, s.line.mode = .running ∨ s.line.mode = .threading → 0 ≤ s.line.vMax →
    ∃ t u, stopCommitted s = commit u (endStop u) ∧ u = commit s t ∧
      t.line = { s.line with
        mode := .stopping, phase := .noPhase, dwell := none, target := 0, rateSource := .stopRate,
        owner := .line } ∧
      hasKind t.events.set .modeChange = true ∧ LineFrame s t) ∧
  ∀ s : State,
    let lifting : Prop := ∃ w p, s.react.executor = some w ∧
      (s.react.levels[w]).runPos = some p ∧ (s.react.levels[w]).defn.actions[p - 1]? = some .lift
    (lifting → liftDone s = { s with react.deferred := s.react.deferred ++ [.actionDone .lift] }) ∧
    (¬lifting → liftDone s = s)

/-! ## The safety inputs -/

/-- R23: ESTOP becomes active: the heater pins and FEED go off, every zone's duty is 0, and ESTOP is raised;
its release raises nothing. R24: GUARD opens in RUNNING, STOPPING or THREADING as a fault, in the other
modes without one; closing raises nothing. ESTOP and GUARD are recorded before the points that their event
changed are handed over (the model's choice, log 55). -/
def Obligations.SafetyInputsTaken : Prop :=
  (∀ s : State, s.runs = true →
    (s.pins.estop = false →
      ∃ u, exec .estopActive s = .next (commit s (record .estop 0 u)) ∧
        u.pins = { s.pins with estop := true } ∧ feedPin u = false ∧
        (∀ z : Fin 6, heaterPin u z = false ∧ (u.loops.zones[z]).active = 0 ∧ pendingDuty u z = 0) ∧
        u.line = s.line ∧ u.meas = s.meas ∧ u.loops.loops = s.loops.loops ∧
        u.loops.spans = s.loops.spans ∧ u.loops.outputs = s.loops.outputs ∧
        u.profiles = s.profiles ∧ u.bands = s.bands ∧ u.engine = s.engine ∧ u.react = s.react ∧
        u.events = s.events ∧ u.link = s.link ∧ u.nvm = s.nvm ∧ u.user = s.user) ∧
    exec .estopReleased s = .next (commit s { s with pins.estop := false })) ∧
  (∀ s : State, s.runs = true →
    (s.pins.guardClosed = true →
      s.line.mode = .running ∨ s.line.mode = .stopping ∨ s.line.mode = .threading →
      exec .guardOpens s =
        .next (commit s (record .guard 0 { s with pins.guardClosed := false }))) ∧
    (s.pins.guardClosed = true →
      s.line.mode ≠ .running → s.line.mode ≠ .stopping → s.line.mode ≠ .threading →
      exec .guardOpens s = .next (commit s { s with pins.guardClosed := false })) ∧
    exec .guardCloses s = .next (commit s { s with pins.guardClosed := true }))

/-! ## LINE_CMD -/

/-- R10: HEAT is taken: the mode becomes WARMING, the heat loops go to AUTO with the setpoints of the heat
lot, the heat hold is cleared, and the silence timing is armed and started. The dwell timing does not run
then, also when the clearing of a hold changes the setpoints (the model's choice, log 41). R10, check 3:
what the scanner must do for a HEAT. R12: COOL is taken in WARMING and READY: the mode becomes OFF, the heat
loops go OFF with no duty left, the dwell timing and the heat hold end, the silence timing stops, and NIP is
turned off. FEED is off there already (R22). -/
def Obligations.HeatAndCoolTaken : Prop :=
  (∀ (tag : Byte) (s : State),
    takeable ⟨0x04, tag, [0]⟩ s = true → s.line.mode = .off → s.profiles.current ≠ none →
    scannerServesHeat s = true → s.pins.estop = false →
    let d := dequeue s
    ∃ t, exec (.lineCmdHeat tag [0]) s = .next (putReply ⟨0x84, tag, [0]⟩ (commit d t)) ∧
      t.line = { s.line with mode := .warming, phase := .noPhase, heatHold := false, dwell := none } ∧
      (∀ k : Fin 10, k.val < 6 →
        (t.loops.loops[k]).setpoint =
          (match s.profiles.heat with
           | none => 0
           | some l => (fabricOf s l.fabric).tSet) ∧
        ((s.loops.loops[k]).override = none → (t.loops.loops[k]).mode = .auto)) ∧
      (s.link.linkSilence ≠ 0 →
        t.link.silenceArmed = true ∧ t.link.silence = some s.link.linkSilence) ∧
      hasKind t.events.set .modeChange = true ∧ LineFrame d t) ∧
  (∀ (tag : Byte) (s : State),
    takeable ⟨0x04, tag, [1]⟩ s = true → s.line.mode = .warming ∨ s.line.mode = .ready →
    let d := dequeue s
    ∃ t, exec (.lineCmdCool tag [1]) s = .next (putReply ⟨0x84, tag, [0]⟩ (commit d t)) ∧
      t.line = { s.line with
        mode := .off, phase := .noPhase, heatHold := false, dwell := none, feed := false,
        nip := (nipOff d).line.nip } ∧
      (nipOff d).line.nip.output = false ∧
      (∀ k : Fin 10, (t.loops.loops[k]).mode = .off) ∧
      (∀ z : Fin 6, (t.loops.zones[z]).active = 0 ∧ pendingDuty t z = 0 ∧ heaterPin t z = false) ∧
      t.link.silenceArmed = false ∧ t.link.silence = none ∧
      hasKind t.events.set .modeChange = true ∧ LineFrame d t) ∧
  ∀ s : State, scannerServesHeat s = true ↔
    s.meas.scan = .continuous ∧ s.meas.first.val = 0 ∧ 9 ≤ s.meas.last.val ∧
      ∀ c : Fin 16, c.val < 10 → (s.meas.channels[c]).mode ≠ .disabled

/-- R13: RUN is taken in READY with GUARD closed and ESTOP released. By the nip state found, and the
feedback, the engage completes at once or stands in CLOSING. R15: THREAD is taken in READY with GUARD
closed and ESTOP released. -/
def Obligations.RunAndThreadTaken : Prop :=
  (∀ (tag : Byte) (s : State),
    takeable ⟨0x04, tag, [2]⟩ s = true → s.line.mode = .ready → s.pins.guardClosed = true →
    s.pins.estop = false →
    let d := dequeue s
    ∃ t, exec (.lineCmdRun tag [2]) s = .next (putReply ⟨0x84, tag, [0]⟩ (commit d t)) ∧
      t.line.mode = .running ∧ t.line.feed = true ∧ t.line.heatHold = false ∧
      t.line.reference = s.line.reference ∧ t.line.beacon = s.line.beacon ∧
      (s.line.nip = .closed ∨ ((s.line.nip = .opened ∨ s.line.nip = .opening) ∧ s.pins.nipFb = true) →
        t.line.nip = .closed ∧ t.line.target = clampTo 0 s.line.vMax (nipRunSpeed s) ∧
        t.line.owner = .line ∧ t.line.rateSource = .rampRate ∧
        t.line.phase = (if t.line.target = t.line.reference then .steady else .ramping)) ∧
      (s.line.nip = .closing ∨ s.line.nip = .lost ∨
          ((s.line.nip = .opened ∨ s.line.nip = .opening) ∧ s.pins.nipFb = false) →
        t.line.nip = .closing ∧ t.line.phase = .engaging ∧ t.line.target = s.line.target) ∧
      hasKind t.events.set .modeChange = true ∧ LineFrame d t) ∧
  (∀ (tag : Byte) (s : State),
    takeable ⟨0x04, tag, [4]⟩ s = true → s.line.mode = .ready → s.pins.guardClosed = true →
    s.pins.estop = false →
    let d := dequeue s
    ∃ t, exec (.lineCmdThread tag [4]) s = .next (putReply ⟨0x84, tag, [0]⟩ (commit d t)) ∧
      t.line = { s.line with
        mode := .threading, phase := .noPhase, dwell := none, feed := true,
        nip := (nipOff d).line.nip, target := clampTo 0 s.line.vMax s.line.vThread,
        rateSource := .rampRate, owner := .line } ∧
      (nipOff d).line.nip.output = false ∧
      hasKind t.events.set .modeChange = true ∧ LineFrame d t)

/-- R16: STOP is taken in RUNNING and THREADING: the mode becomes STOPPING and the target 0 at the stop
rate; a reference already at 0 ends the stop as it is taken. Each of the two MODE_CHANGEs is taken whole
(the model's choice, log 30). R16: with the reference at 0 in STOPPING, the mode becomes READY, FEED is
turned off, and NIP too if lift_on_stop is 1, after a STOP action too (R174; the model's reading of R130,
log 53); otherwise the stop stands, until the speed period brings the reference to 0 (EncoderSpeedAndDwell).
-/
def Obligations.StopTakenAndEnded : Prop :=
  (∀ (tag : Byte) (s : State),
    takeable ⟨0x04, tag, [3]⟩ s = true → s.line.mode = .running ∨ s.line.mode = .threading →
    0 ≤ s.line.vMax →
    let d := dequeue s
    ∃ t u, exec (.lineCmdStop tag [3]) s =
        .next (putReply ⟨0x84, tag, [0]⟩ (commit u (endStop u))) ∧
      u = commit d t ∧
      t.line = { s.line with
        mode := .stopping, phase := .noPhase, dwell := none, target := 0, rateSource := .stopRate,
        owner := .line } ∧
      hasKind t.events.set .modeChange = true ∧ LineFrame d t) ∧
  (∀ s : State,
    (s.line.mode = .stopping → s.line.reference = 0 →
      (endStop s).line.mode = .ready ∧ (endStop s).line.phase = .noPhase ∧
      (endStop s).line.feed = false ∧ (endStop s).line.reference = 0 ∧
      (s.line.liftOnStop = 1 → (endStop s).line.nip.output = false) ∧
      (s.line.liftOnStop = 0 → (endStop s).line.nip = s.line.nip) ∧
      hasKind (endStop s).events.set .modeChange = true ∧ LineFrame s (endStop s)) ∧
    (s.line.mode ≠ .stopping ∨ s.line.reference ≠ 0 → endStop s = s))

/-- R18: CLEAR leaves SAFE for OFF when ESTOP is released, GUARD is closed and the fault record is empty;
in the other modes it turns a lit beacon off. -/
def Obligations.ClearTaken : Prop :=
  ∀ (tag : Byte) (s : State), takeable ⟨0x04, tag, [5]⟩ s = true →
    let d := dequeue s
    (s.line.mode = .safe → s.pins.estop = false → s.pins.guardClosed = true →
      s.events.fault.kinds = 0 →
      ∃ t, exec (.lineCmdClear tag [5]) s = .next (putReply ⟨0x84, tag, [0]⟩ (commit d t)) ∧
        t.line = { s.line with mode := .off, phase := .noPhase, dwell := none, beacon := false } ∧
        t.link.silenceArmed = false ∧ t.link.silence = none ∧
        hasKind t.events.set .modeChange = true ∧ LineFrame d t) ∧
    (s.line.mode = .safe →
      s.pins.estop = true ∨ s.pins.guardClosed = false ∨ s.events.fault.kinds ≠ 0 →
      exec (.lineCmdClear tag [5]) s = .next (putReply ⟨0x84, tag, [12]⟩ d)) ∧
    (s.line.mode ≠ .safe → s.line.beacon = true →
      exec (.lineCmdClear tag [5]) s =
        .next (putReply ⟨0x84, tag, [0]⟩ (commit d { d with line.beacon := false }))) ∧
    (s.line.mode ≠ .safe → s.line.beacon = false →
      exec (.lineCmdClear tag [5]) s = .next (putReply ⟨0x84, tag, [6]⟩ d))

/-- R10, R12, R13, R15, R16, R19, R198: a LINE_CMD that is not taken is answered with its status and leaves
every other piece of state as it was: MODE, NO_LOT for a HEAT with no current lot, RANGE for a value other
than the six, LENGTH for a payload that is not one byte. R28: a SCAN_CMD that is not taken: LENGTH for a
payload that is not one byte, or four for CONFIGURE, MODE outside OFF, RANGE for a value other than the
four, BUSY with the scanner not IDLE, RANGE for a range or sample time not allowed; the scanner is as it
was. The lengths, and which rows may carry a payload of no row, are the model's choice, and so is that a row
given another row's payload does nothing (log 23). -/
def Obligations.LineAndScanRefusals : Prop :=
  (∀ (tag : Byte) (s : State),
    let d := dequeue s
    (takeable ⟨0x04, tag, [0]⟩ s = true →
      (s.line.mode ≠ .off → exec (.lineCmdHeat tag [0]) s = .next (putReply ⟨0x84, tag, [6]⟩ d)) ∧
      (s.line.mode = .off → s.profiles.current = none →
        exec (.lineCmdHeat tag [0]) s = .next (putReply ⟨0x84, tag, [13]⟩ d)) ∧
      (s.line.mode = .off → s.profiles.current ≠ none →
        scannerServesHeat s = false ∨ s.pins.estop = true →
        exec (.lineCmdHeat tag [0]) s = .next (putReply ⟨0x84, tag, [6]⟩ d))) ∧
    (takeable ⟨0x04, tag, [1]⟩ s = true → s.line.mode ≠ .warming → s.line.mode ≠ .ready →
      exec (.lineCmdCool tag [1]) s = .next (putReply ⟨0x84, tag, [6]⟩ d)) ∧
    (takeable ⟨0x04, tag, [2]⟩ s = true →
      s.line.mode ≠ .ready ∨ s.pins.guardClosed = false ∨ s.pins.estop = true →
      exec (.lineCmdRun tag [2]) s = .next (putReply ⟨0x84, tag, [6]⟩ d)) ∧
    (takeable ⟨0x04, tag, [4]⟩ s = true →
      s.line.mode ≠ .ready ∨ s.pins.guardClosed = false ∨ s.pins.estop = true →
      exec (.lineCmdThread tag [4]) s = .next (putReply ⟨0x84, tag, [6]⟩ d)) ∧
    (takeable ⟨0x04, tag, [3]⟩ s = true → s.line.mode ≠ .running → s.line.mode ≠ .threading →
      exec (.lineCmdStop tag [3]) s = .next (putReply ⟨0x84, tag, [6]⟩ d))) ∧
  (∀ (k : Nat) (row : Byte → List Byte → Instr) (tag : Byte) (payload : List Byte) (s : State),
    (k, row) ∈ [(0, Instr.lineCmdHeat), (1, .lineCmdCool), (2, .lineCmdRun), (3, .lineCmdStop),
      (4, .lineCmdThread), (5, .lineCmdClear)] →
    let d := dequeue s
    let carries : Prop := ∀ b rest, payload = b :: rest → b.toNat = k ∨ 6 ≤ b.toNat
    (¬carries → exec (row tag payload) s = .next s) ∧
    (carries → takeable ⟨0x04, tag, payload⟩ s = true →
      (payload.length ≠ 1 → exec (row tag payload) s = .next (putReply ⟨0x84, tag, [3]⟩ d)) ∧
      ∀ v : Byte, payload = [v] → 6 ≤ v.toNat →
        exec (row tag payload) s = .next (putReply ⟨0x84, tag, [11]⟩ d))) ∧
  (∀ (k : Nat) (row : Byte → List Byte → Instr) (tag : Byte) (payload : List Byte) (s : State),
    (k, row) ∈ [(0, Instr.scanCmdContinuous), (1, .scanCmdSingle), (2, .scanCmdStop),
      (3, .scanCmdConfigure)] →
    let d := dequeue s
    let carries : Prop := ∀ b rest, payload = b :: rest → b.toNat = k ∨ 4 ≤ b.toNat
    (¬carries → exec (row tag payload) s = .next s) ∧
    (carries → takeable ⟨0x11, tag, payload⟩ s = true →
      (payload.length ≠ (if payload.head? = some 3 then 4 else 1) →
        exec (row tag payload) s = .next (putReply ⟨0x91, tag, [3]⟩ d)) ∧
      ∀ v : Byte, payload = [v] → 4 ≤ v.toNat →
        (s.line.mode ≠ .off → exec (row tag payload) s = .next (putReply ⟨0x91, tag, [6]⟩ d)) ∧
        (s.line.mode = .off → exec (row tag payload) s = .next (putReply ⟨0x91, tag, [11]⟩ d)))) ∧
  (∀ (tag f l t : Byte) (s : State),
    let d := dequeue s
    (s.line.mode ≠ .off →
      (takeable ⟨0x11, tag, [0]⟩ s = true →
        exec (.scanCmdContinuous tag [0]) s = .next (putReply ⟨0x91, tag, [6]⟩ d)) ∧
      (takeable ⟨0x11, tag, [1]⟩ s = true →
        exec (.scanCmdSingle tag [1]) s = .next (putReply ⟨0x91, tag, [6]⟩ d)) ∧
      (takeable ⟨0x11, tag, [2]⟩ s = true →
        exec (.scanCmdStop tag [2]) s = .next (putReply ⟨0x91, tag, [6]⟩ d)) ∧
      (takeable ⟨0x11, tag, [3, f, l, t]⟩ s = true →
        exec (.scanCmdConfigure tag [3, f, l, t]) s = .next (putReply ⟨0x91, tag, [6]⟩ d))) ∧
    (s.line.mode = .off →
      (s.meas.scan ≠ .idle →
        (takeable ⟨0x11, tag, [0]⟩ s = true →
          exec (.scanCmdContinuous tag [0]) s = .next (putReply ⟨0x91, tag, [7]⟩ d)) ∧
        (takeable ⟨0x11, tag, [1]⟩ s = true →
          exec (.scanCmdSingle tag [1]) s = .next (putReply ⟨0x91, tag, [7]⟩ d)) ∧
        (takeable ⟨0x11, tag, [3, f, l, t]⟩ s = true →
          exec (.scanCmdConfigure tag [3, f, l, t]) s = .next (putReply ⟨0x91, tag, [7]⟩ d))) ∧
      (s.meas.scan = .idle → takeable ⟨0x11, tag, [3, f, l, t]⟩ s = true →
        l.toNat < f.toNat ∨ 15 < l.toNat ∨ t.toNat = 0 ∨ 8 < t.toNat →
        exec (.scanCmdConfigure tag [3, f, l, t]) s = .next (putReply ⟨0x91, tag, [11]⟩ d))))

/-! ## The scanner and the channels -/

/-- R27 to R29: SCAN_CMD taken in OFF, and the expiry of the cycle period. A cycle starts only with no
pass under way (the model's choice where the spec rules the case out, log 28). R27: the visit that follows
is the next channel of the scan range that is not DISABLED. -/
def Obligations.ScanOperationsTaken : Prop :=
  (∀ (tag : Byte) (s : State),
    let d := dequeue s
    (s.line.mode = .off →
      (takeable ⟨0x11, tag, [0]⟩ s = true → s.meas.scan = .idle →
        exec (.scanCmdContinuous tag [0]) s =
          .next (putReply ⟨0x91, tag, [0]⟩ (commit d { d with
            meas.scan := .continuous
            meas.converting := nextVisit s 0 }))) ∧
      (takeable ⟨0x11, tag, [1]⟩ s = true → s.meas.scan = .idle →
        exec (.scanCmdSingle tag [1]) s =
          .next (putReply ⟨0x91, tag, [0]⟩ (commit d { d with
            meas.scan := (if nextVisit s 0 = none then .idle else .single)
            meas.converting := nextVisit s 0 }))) ∧
      (takeable ⟨0x11, tag, [2]⟩ s = true →
        exec (.scanCmdStop tag [2]) s =
          .next (putReply ⟨0x91, tag, [0]⟩ (commit d { d with
            meas.scan :=
              (if s.meas.scan = .halting ∨ (s.meas.scan ≠ .idle ∧ s.meas.converting ≠ none) then
                .halting
              else .idle) }))) ∧
      (∀ f l t : Byte, takeable ⟨0x11, tag, [3, f, l, t]⟩ s = true → s.meas.scan = .idle →
        f.toNat ≤ l.toNat → ∀ hl : l.toNat < 16, 1 ≤ t.toNat → t.toNat ≤ 8 →
        ∀ hf : f.toNat < 16,
        exec (.scanCmdConfigure tag [3, f, l, t]) s =
          .next (putReply ⟨0x91, tag, [0]⟩ (commit d { d with
            meas.first := ⟨f.toNat, hf⟩
            meas.last := ⟨l.toNat, hl⟩
            meas.sampleTime := t.toNat })))) ∧
    (s.runs = true →
      (s.meas.scan = .continuous → s.meas.converting = none →
        exec .scanCycleExpiry s =
          .next (commit s { s with meas.converting := nextVisit s 0 })) ∧
      (s.meas.scan ≠ .continuous → exec .scanCycleExpiry s = .next s))) ∧
  (∀ (s : State) (n : Nat) (c : Fin 16),
    nextVisit s n = some c ↔
      n ≤ c.val ∧ s.meas.first ≤ c ∧ c ≤ s.meas.last ∧ (s.meas.channels[c]).mode ≠ .disabled ∧
        ∀ d : Fin 16, n ≤ d.val → s.meas.first ≤ d → d < c → (s.meas.channels[d]).mode = .disabled)

/-- R33, R34, R36, R37, R39, R40: the record that a good conversion leaves: the trimmed and scaled
value, the ring and its mean, the zero correction and the processed value. R40: ZERO_LIMIT is raised
exactly by a capture of a FORCE channel whose average lies beyond the aperture. -/
def Obligations.ConversionChain : Prop :=
  ∀ (force speedZero : Bool) (c : Channel) (r : Int), 1 ≤ c.avgN →
    let g := goodConversion force speedZero c r
    let v := clampTo (-2147483648) 2147483647
      (Int.fdiv (clampTo 0 65535 (r + c.trim) * c.scale + 32768) 65536 + c.offset)
    let restart := c.stale = true ∨ (0 < c.avgWindow ∧ c.ring ≠ [] ∧ c.avgWindow < |v - meanOf c.ring|)
    let a := Int.fdiv (2 * g.ring.sum + g.ring.length) (2 * g.ring.length)
    g.raw = r ∧ g.scaled = v ∧ g.status = .ok ∧ g.stale = false ∧ g.mode = c.mode ∧
    (restart → g.ring = [v]) ∧
    (¬restart → g.ring = (c.ring ++ [v]).drop (c.ring.length + 1 - c.avgN.toNat)) ∧
    (force = false → g.processed = a ∧ g.zeroCorr = c.zeroCorr) ∧
    (force = true →
      g.processed = clampTo (-2147483648) 2147483647 (a - g.zeroCorr) ∧
      (restart → g.lastSecond = [a]) ∧
      (¬restart → g.lastSecond = (c.lastSecond ++ [a]).drop (c.lastSecond.length + 1 - 10)) ∧
      (speedZero = true ∧ c.captureBand ≠ 255 ∧ |a - c.zeroCorr| ≤ c.captureBand ∧ ¬restart ∧
          c.lastSecond.length = 10 ∧ |a - c.lastSecond.headD 0| ≤ c.motionBand →
        g.zeroCorr = if |a| ≤ c.aperture then a else if a < 0 then -c.aperture else c.aperture) ∧
      (¬(speedZero = true ∧ c.captureBand ≠ 255 ∧ |a - c.zeroCorr| ≤ c.captureBand ∧ ¬restart ∧
          c.lastSecond.length = 10 ∧ |a - c.lastSecond.headD 0| ≤ c.motionBand) →
        g.zeroCorr = c.zeroCorr)) ∧
    (raisesZeroLimit force speedZero c r = true ↔
      force = true ∧ speedZero = true ∧ c.captureBand ≠ 255 ∧ |a - c.zeroCorr| ≤ c.captureBand ∧
        ¬restart ∧ c.lastSecond.length = 10 ∧ |a - c.lastSecond.headD 0| ≤ c.motionBand ∧
        c.aperture < |a|) ∧
    g.trim = c.trim ∧ g.scale = c.scale ∧ g.offset = c.offset ∧ g.avgN = c.avgN ∧
    g.avgWindow = c.avgWindow ∧ g.captureBand = c.captureBand ∧ g.motionBand = c.motionBand ∧
    g.aperture = c.aperture

/-- R27, R31, R32, R37, R43, R44: a conversion that completes on channel c: good, broken, discarded for a
forced channel, discarded for a disabled one. The channel's points are handed over first, and the arrival
reaches the loop unit and the band tracker after it (that order is the model's, log 14); a ZERO_LIMIT or
SENSOR_FAULT is recorded before both (the model's choice, log 55). When the conversion has been handled,
with the levels it triggers, last_channel takes the number and the scanner goes on or becomes IDLE (the
model's choice, log 47). -/
def Obligations.ConversionCompletes : Prop :=
  ∀ (raw : BitVec 16) (s : State) (c : Fin 16), s.runs = true → s.meas.converting = some c →
    let ch := s.meas.channels[c]
    ∃ (scan : ScanState) (next : Option (Fin 16)),
      (s.meas.scan = .continuous → scan = .continuous ∧ next = nextVisit s (c.val + 1)) ∧
      (s.meas.scan = .single → next = nextVisit s (c.val + 1) ∧
        scan = if nextVisit s (c.val + 1) = none then .idle else .single) ∧
      (s.meas.scan = .halting → scan = .idle ∧ next = none) ∧
      let done : State → State := fun u => commit u { u with
        meas.scan := scan
        meas.converting := next
        meas.lastChannel := some c }
      (ch.mode = .normal → 35 < raw.toNat → raw.toNat < 65500 →
        let g := goodConversion (isForceChannel c) (s.line.speed == 0) ch raw.toNat
        let t := { s with meas.channels := upd s.meas.channels c g }
        exec (.conversionComplete raw) s =
          .next (done (freshArrival c g.processed (commitArrival c s
            (if raisesZeroLimit (isForceChannel c) (s.line.speed == 0) ch raw.toNat = true then
              record .zeroLimit c.val t
            else t))))) ∧
      (ch.mode = .normal → raw.toNat ≤ 35 ∨ 65500 ≤ raw.toNat →
        let st : ChannelStatus := if raw.toNat ≤ 35 then .shorted else .openCircuit
        let t := { s with
          meas.channels := upd s.meas.channels c
            { ch with raw := raw.toNat, status := st, stale := true } }
        exec (.conversionComplete raw) s =
          .next (done (heldArrival c ch.processed (commitArrival c s
            (if ch.status = st then t else record .sensorFault c.val t))))) ∧
      (ch.mode = .forced →
        exec (.conversionComplete raw) s =
          .next (done (freshArrival c ch.processed (commitArrival c s s)))) ∧
      (ch.mode = .disabled → exec (.conversionComplete raw) s = .next (done s))

/-- R38, R42, R43: the silence timing's expiry sets the stale mark, and CHANNEL_MODE changes a channel's
mode in OFF, WARMING, READY and SAFE. -/
def Obligations.SilenceAndChannelModes : Prop :=
  (∀ (c : Fin 16) (s : State), s.runs = true → (s.meas.channels[c]).mode = .normal →
    (s.meas.channels[c]).stale = false →
    exec (.silenceTimingExpiry c) s =
      .next (staleNotice c (commit s { s with
        meas.channels := upd s.meas.channels c { s.meas.channels[c] with stale := true } }))) ∧
  ∀ (tag : Byte) (c : Fin 16) (s : State),
    let d := dequeue s
    let ch := s.meas.channels[c]
    let number : Byte := BitVec.ofNat 8 c.val
    ((s.line.mode = .off ∨ s.line.mode = .warming ∨ s.line.mode = .ready ∨ s.line.mode = .safe) →
      (takeable ⟨0x12, tag, [number, 0]⟩ s = true → ch.mode ≠ .normal →
        exec (.channelMode tag [number, 0]) s =
          .next (putReply ⟨0x92, tag, [0]⟩ (commit d { d with
            meas.channels := upd s.meas.channels c { ch with mode := .normal, ring := [], lastSecond := [] } }))) ∧
      (takeable ⟨0x12, tag, [number, 1]⟩ s = true → ch.mode ≠ .forced →
        exec (.channelMode tag [number, 1]) s =
          .next (putReply ⟨0x92, tag, [0]⟩ (commit d { d with
            meas.channels := upd s.meas.channels c { ch with mode := .forced, status := .ok, stale := false } }))) ∧
      (takeable ⟨0x12, tag, [number, 2]⟩ s = true → ch.mode ≠ .disabled →
        exec (.channelMode tag [number, 2]) s =
          .next (putReply ⟨0x92, tag, [0]⟩ (staleNotice c (commit d { d with
            meas.channels := upd s.meas.channels c { ch with mode := .disabled, stale := true } })))) ∧
      (∀ m : Byte, m.toNat = ch.mode.code → takeable ⟨0x12, tag, [number, m]⟩ s = true →
        exec (.channelMode tag [number, m]) s = .next (putReply ⟨0x92, tag, [0]⟩ d)) ∧
      (∀ n m : Byte, 15 < n.toNat ∨ 2 < m.toNat → takeable ⟨0x12, tag, [n, m]⟩ s = true →
        exec (.channelMode tag [n, m]) s = .next (putReply ⟨0x92, tag, [11]⟩ d))) ∧
    (s.line.mode = .running ∨ s.line.mode = .stopping ∨ s.line.mode = .threading →
      ∀ n m : Byte, takeable ⟨0x12, tag, [n, m]⟩ s = true →
        exec (.channelMode tag [n, m]) s = .next (putReply ⟨0x92, tag, [6]⟩ d))

/-- R41: ZERO takes the channel's present average as its zero correction, or is refused, by the four
checks in their order. -/
def Obligations.ZeroTaken : Prop :=
  ∀ (tag n : Byte) (s : State), takeable ⟨0x13, tag, [n]⟩ s = true →
    let d := dequeue s
    (n.toNat < 6 ∨ 9 < n.toNat → exec (.zero tag [n]) s = .next (putReply ⟨0x93, tag, [11]⟩ d)) ∧
    ∀ c : Fin 16, n.toNat = c.val → 6 ≤ c.val → c.val ≤ 9 →
      let ch := s.meas.channels[c]
      let a := Int.fdiv (2 * ch.ring.sum + ch.ring.length) (2 * ch.ring.length)
      exec (.zero tag [n]) s =
        if ch.mode ≠ .normal ∨ s.line.speed ≠ 0 then .next (putReply ⟨0x93, tag, [6]⟩ d)
        else if ch.stale = true ∨ ch.ring = [] then .next (putReply ⟨0x93, tag, [12]⟩ d)
        else if ch.aperture < |a| then .next (putReply ⟨0x93, tag, [11]⟩ d)
        else .next (putReply ⟨0x93, tag, [0]⟩ (commit d { d with
          meas.channels := upd s.meas.channels c { ch with zeroCorr := a } }))

/-! ## The loops, the heaters and the analog outputs -/

/-- R65, R80: a computation leaves the output and the integrator within the loop's bounds and follows
the proportional and integral terms; an output's counts stay between its two calibration values. -/
def Obligations.LoopAndOutputBounds : Prop :=
  (∀ (l : LoopRec) (p : Int), l.outMin ≤ l.outMax →
    let e := l.setpoint - p
    let t := computeLoop l p
    l.outMin ≤ t.u ∧ t.u ≤ l.outMax ∧ 256 * l.outMin ≤ t.i ∧ t.i ≤ 256 * l.outMax ∧
    t.u = max l.outMin (min l.outMax (Int.fdiv (l.kp * e + t.i) 256)) ∧
    ((l.u = l.outMax ∧ 0 < e) ∨ (l.u = l.outMin ∧ e < 0) →
      t.i = max (256 * l.outMin) (min (256 * l.outMax) l.i)) ∧
    (¬((l.u = l.outMax ∧ 0 < e) ∨ (l.u = l.outMin ∧ e < 0)) →
      t.i = max (256 * l.outMin) (min (256 * l.outMax) (l.i + l.ki * e))) ∧
    t = { l with u := t.u, i := t.i }) ∧
  ∀ (o : AnalogOut) (v : Int),
    min o.calLo o.calHi ≤ countsFor o v ∧ countsFor o v ≤ max o.calLo o.calHi ∧
    (o.fullAt = o.zeroAt → countsFor o v = o.calLo) ∧
    (o.fullAt ≠ o.zeroAt →
      countsFor o v = max (min o.calLo o.calHi) (min (max o.calLo o.calHi)
        (o.calLo + Int.tdiv ((v - o.zeroAt) * (o.calHi - o.calLo)) (o.fullAt - o.zeroAt))))

/-- R11, R32, R37, R38, R44, Table 2-1: where an arrival and a stale notice go: channels 0 to 5 to the
heat loop, the band tracker and the dwell check, 6 to 9 to the tension loop, 10 to 15 to none; and the
dwell check itself. The order of the consumers is the model's (log 14). R69, R74: a held arrival or a
stale notice at a loop: the zone is held off, and a tension loop in AUTO with no override goes to HOLD. -/
def Obligations.ArrivalsReachConsumers : Prop :=
  ((∀ (c : Fin 16) (z : Fin 6) (p : Int) (s : State), c.val = z.val →
    freshArrival c p s = checkDwell (integrateDose z p false (heatArrival z p s)) ∧
    heldArrival c p s = checkDwell (integrateDose z p true (loopStale (zoneLoop z) s)) ∧
    staleNotice c s = checkDwell (loopStale (zoneLoop z) s)) ∧
  (∀ (c : Fin 16) (x : Fin 4) (p : Int) (s : State), c.val = 6 + x.val →
    freshArrival c p s = tensionArrival x p s ∧ heldArrival c p s = loopStale (spanLoop x) s ∧
    staleNotice c s = loopStale (spanLoop x) s) ∧
  (∀ (c : Fin 16) (p : Int) (s : State), 10 ≤ c.val →
    freshArrival c p s = s ∧ heldArrival c p s = s ∧ staleNotice c s = s) ∧
  ∀ s : State,
    let inBand : Prop := ∀ (z : Fin 6) (c : Fin 16), c.val = z.val → (s.meas.channels[c]).stale = false ∧
      |(s.meas.channels[c]).processed - (s.loops.loops[zoneLoop z]).setpoint| ≤ s.line.readyBand
    (s.line.mode = .warming → inBand → s.line.dwell = none →
      checkDwell s = { s with line.dwell := some s.line.readyDwell }) ∧
    (s.line.mode = .warming → inBand → s.line.dwell ≠ none → checkDwell s = s) ∧
    (s.line.mode = .warming → ¬inBand → checkDwell s = { s with line.dwell := none }) ∧
    (s.line.mode ≠ .warming → checkDwell s = s)) ∧
  (∀ (k : Fin 10) (s : State), ∃ t, loopStale k s = commit s t ∧
    (t.loops.loops[k]).stale = true ∧
    (baseMode s k ≠ .off → (s.loops.loops[k]).override ≠ some .off →
      (t.loops.loops[k]).u = (s.loops.loops[k]).u ∧ (t.loops.loops[k]).i = (s.loops.loops[k]).i) ∧
    (∀ z : Fin 6, zoneLoop z = k → (t.loops.zones[z]).active = 0 ∧
      (t.loops.zones[z]).heaterOn = false ∧ pendingDuty t z = 0) ∧
    (6 ≤ k.val → baseMode s k = .auto → (s.loops.loops[k]).override = none →
      (t.loops.loops[k]).mode = .hold) ∧
    (∀ j : Fin 10, j ≠ k → t.loops.loops[j] = s.loops.loops[j]) ∧
    (∀ z : Fin 6, zoneLoop z ≠ k → heldOff s z = false → t.loops.zones[z] = s.loops.zones[z]) ∧
    (k.val < 6 → t.loops.spans = s.loops.spans) ∧
    t.loops.outputs = s.loops.outputs ∧ t.line = s.line ∧ t.meas = s.meas ∧ t.bands = s.bands ∧
    t.profiles = s.profiles ∧ t.engine = s.engine ∧ t.events = s.events ∧ t.react = s.react ∧
    t.link = s.link ∧ t.nvm = s.nvm ∧ t.user = s.user ∧ t.pins = s.pins)

/-- R64, R74 to R76: what a good or forced arrival does at a heat zone: the relative limit is brought up to
date, over-temperature is entered with OVERHEAT or left, and a loop in AUTO outside it computes. OVERHEAT is
recorded before the zone's duty point is handed over (the model's choice, log 55). -/
def Obligations.HeatArrivals : Prop :=
  ∀ (z : Fin 6) (p : Int) (s : State),
    let limit : Option Int :=
      match heatFabric s, (s.loops.zones[z]).relLimit with
      | some f, some l =>
        if p ≤ f.tSet + s.loops.overheatMargin ∧ f.tSet + s.loops.overheatMargin < l then
          some (f.tSet + s.loops.overheatMargin)
        else some l
      | _, l => l
    let threshold : Int :=
      match limit with
      | none => s.loops.tAbsMax
      | some l => min l s.loops.tAbsMax
    let computes : Prop :=
      (s.loops.loops[zoneLoop z]).mode = .auto ∧
        (if (s.loops.zones[z]).overTemp = true then p ≤ threshold - 50 else p ≤ threshold)
    ∃ t, heatArrival z p s = commit s t ∧
      (t.loops.zones[z]).relLimit = limit ∧
      ((s.loops.zones[z]).overTemp = false → threshold < p →
        (t.loops.zones[z]).overTemp = true ∧ (t.loops.zones[z]).active = 0 ∧
        (t.loops.zones[z]).heaterOn = false ∧ pendingDuty t z = 0 ∧
        hasKind t.events.set .overheat = true) ∧
      ((s.loops.zones[z]).overTemp = false → p ≤ threshold →
        (t.loops.zones[z]).overTemp = false ∧ t.events = s.events) ∧
      ((s.loops.zones[z]).overTemp = true →
        (t.loops.zones[z]).overTemp = decide (threshold - 50 < p) ∧ t.events = s.events) ∧
      (computes → t.loops.loops = upd s.loops.loops (zoneLoop z)
        (computeLoop { s.loops.loops[zoneLoop z] with stale := false } p)) ∧
      (¬computes → t.loops.loops = upd s.loops.loops (zoneLoop z)
        { s.loops.loops[zoneLoop z] with stale := false }) ∧
      (∀ y : Fin 6, y ≠ z → heldOff s y = false → t.loops.zones[y] = s.loops.zones[y]) ∧
      t.loops.outputs = s.loops.outputs ∧ t.loops.spans = s.loops.spans ∧ t.line = s.line ∧
      t.meas = s.meas ∧ t.bands = s.bands ∧ t.profiles = s.profiles ∧ t.engine = s.engine ∧
      t.nvm = s.nvm ∧ t.user = s.user ∧ t.pins = s.pins

/-- R68, R69: the base mode of each loop by line mode and speed reference, and the mode that it takes with
its override and its stale mark. R64, R69, R79: what a good or forced arrival does at a tension loop, and
the expiry of the web-loss timing. The arrival that brings a loop from HOLD back to AUTO already makes the
web-loss comparison (the model's choice, log 49). -/
def Obligations.TensionArrivalsAndWebLoss : Prop :=
  (∀ s : State,
    (∀ z : Fin 6, baseMode s (zoneLoop z) =
      if s.line.mode = .off ∨ s.line.mode = .safe then .off else .auto) ∧
    (∀ x : Fin 4, baseMode s (spanLoop x) =
      if s.line.mode = .running ∨ s.line.mode = .stopping ∨ s.line.mode = .threading then
        (if 0 < s.line.reference then .auto else .hold)
      else .off) ∧
    ∀ k : Fin 10,
      ((refreshLoops s).loops.loops[k]).mode =
        if baseMode s k = .off then .off
        else
          match (s.loops.loops[k]).override with
          | some m => m
          | none =>
            if 6 ≤ k.val ∧ baseMode s k = .auto ∧ (s.loops.loops[k]).stale = true then .hold
            else baseMode s k) ∧
  (∀ (x : Fin 4) (p : Int) (s : State), baseMode s (spanLoop x) = .auto →
    (s.loops.loops[spanLoop x]).override = none →
    let l := { s.loops.loops[spanLoop x] with stale := false, mode := .auto }
    let span := s.loops.spans[x]
    tensionArrival x p s = commit s { s with
      loops.loops := upd s.loops.loops (spanLoop x) (computeLoop l p)
      loops.spans := upd s.loops.spans x
        (if p < span.lossThreshold then
          { span with timing :=
              if span.timing = none ∧ span.armed = true then some span.lossTime else span.timing }
        else { span with timing := none, armed := true }) }) ∧
  ∀ (x : Fin 4) (s : State), s.runs = true → (s.loops.spans[x]).timing ≠ none →
    exec (.webLossExpiry x) s =
      .next (commit s (record .webLoss (7 + x.val) { s with
        loops.spans := upd s.loops.spans x { s.loops.spans[x] with timing := none, armed := false } }))

/-- R72, R73: at a window start every zone latches its pending duty, turns its pin on for a duty above 0
and takes its on-time from the new window's length; the end of the on-time turns the pin off. -/
def Obligations.HeaterWindows : Prop :=
  ∀ s : State, s.runs = true →
    exec .heaterWindowStart s = .next (commit s { s with
      loops.windowLength := s.loops.heaterWindow
      loops.zones := tab fun z =>
        let duty := pendingDuty s z
        { s.loops.zones[z] with
          active := duty
          heaterOn := decide (0 < duty)
          onTime :=
            (if 0 < duty ∧ duty < 1000 then some (Int.fdiv (duty * s.loops.heaterWindow) 1000)
            else none) } }) ∧
    ∀ z : Fin 6, (s.loops.zones[z]).onTime ≠ none →
      exec (.heaterOnTimeEnd z) s = .next { s with
        loops.zones := upd s.loops.zones z { s.loops.zones[z] with heaterOn := false, onTime := none } }

/-! ## The point table -/

/-- R47, Table 3-3: a number names the point whose number it is, and no other; the numbers 307 to 309 and
those from 368 on are absent. -/
def Obligations.PointNumbersUnique : Prop :=
  (∀ (n : Nat) (p : Point), Point.ofNumber n = some p ↔ p.number = n) ∧
    ∀ n : Nat, Point.ofNumber n = none ↔ (307 ≤ n ∧ n ≤ 309) ∨ 368 ≤ n

/-- R53: POINT_READ answers one entry for each number, in order: the number, the value the point shows, and
OK, or 0 and NO_SUCH; nothing but the taking of the frame changes; a payload that is not 1 to 64 whole
numbers is refused with LENGTH. R54: POINT_WRITE takes its pairs one after another, each judged on the state
its predecessors left, and answers one status a pair; a payload that is not 1 to 32 whole pairs is refused
with LENGTH. A pair is judged as PointWritesJudged says, the points that its effect changed are handed over,
and a taken write of P_in, L_wrap, P_exit_margin or heat_lead finds the lots afresh (R93), all before the
next pair (R55). The trigger offers and the lot events that the pairs leave are taken when the request ends
(the model's choice, log 33). R26, R47, R59, R78, R136: what each LIVE point shows. -/
def Obligations.PointRequestsTaken : Prop :=
  (∀ (tag : Byte) (numbers : List Nat) (s : State),
    (∀ n ∈ numbers, n < 65536) → 1 ≤ numbers.length → numbers.length ≤ 64 →
    let payload := numbers.flatMap (leBytes 2)
    takeable ⟨0x02, tag, payload⟩ s = true →
    exec (.pointRead tag payload) s =
      .next (putReply ⟨0x82, tag, 0 :: numbers.flatMap fun n =>
        leBytes 2 n ++
          (match Point.ofNumber n with
          | some p => enc32 (readPoint s p) ++ [0]
          | none => enc32 0 ++ [4])⟩ (dequeue s))) ∧
  (∀ (tag : Byte) (payload : List Byte) (s : State), takeable ⟨0x02, tag, payload⟩ s = true →
    payload.length % 2 ≠ 0 ∨ payload.length = 0 ∨ 128 < payload.length →
    exec (.pointRead tag payload) s = .next (putReply ⟨0x82, tag, [3]⟩ (dequeue s))) ∧
  ((∀ (tag : Byte) (pairs : List (Nat × BitVec 32)) (s : State),
    (∀ p ∈ pairs, p.1 < 65536) → 1 ≤ pairs.length → pairs.length ≤ 32 →
    let payload := pairs.flatMap fun p => leBytes 2 p.1 ++ leBytes 4 p.2.toNat
    let r := writePairs (pairs.map fun p => (p.1, p.2.toInt)) (dequeue s)
    takeable ⟨0x03, tag, payload⟩ s = true →
    exec (.pointWrite tag payload) s =
      .next (putReply ⟨0x83, tag, 0 :: r.2.flatMap fun st => [BitVec.ofNat 8 st.code]⟩ (settle r.1)) ∧
    r.2.length = pairs.length) ∧
  (∀ (n : Nat) (v : Int) (rest : List (Nat × Int)) (s : State),
    writePairs ((n, v) :: rest) s =
      ((writePairs rest (writePair s n v).1).1,
        (writePair s n v).2 :: (writePairs rest (writePair s n v).1).2)) ∧
  (∀ (n : Nat) (v : Int) (s : State),
    let r := writeByNumber n v s
    let u := publish s r.state
    let u1 := publish u (findHeatLotBy raiseLater u)
    (writePair s n v).2 = r.status ∧
    (writePair s n v).1 =
      if (17 ≤ n ∧ n ≤ 20) ∧ (r.status = .ok ∨ r.status = .clamped) then
        publish u1 (findNipLotBy raiseLater u1)
      else u) ∧
  (∀ (k : EventKind) (detail : Nat) (s : State),
    raiseLater k detail s = { s with react.deferred := s.react.deferred ++ [.toRaise k detail] }) ∧
  ∀ (tag : Byte) (payload : List Byte) (s : State), takeable ⟨0x03, tag, payload⟩ s = true →
    payload.length % 6 ≠ 0 ∨ payload.length = 0 ∨ 192 < payload.length →
    exec (.pointWrite tag payload) s = .next (putReply ⟨0x83, tag, [3]⟩ (dequeue s))) ∧
  ∀ s : State,
    let shows : Nat → Int → Prop := fun n v => (Point.ofNumber n).map (readPoint s) = some v
    let flag : Nat → Bool → Prop := fun n b => shows n (if b = true then 1 else 0)
    let lot : Nat → Option Lot → Prop := fun n l =>
      shows n (match l with | none => 0 | some x => x.seq)
    (shows 0 (match s.line.mode with
        | .off => 0 | .warming => 1 | .ready => 2 | .running => 3 | .stopping => 4 | .threading => 5
        | .safe => 6) ∧
      shows 1 (match s.line.phase with
        | .noPhase => 0 | .engaging => 1 | .ramping => 2 | .steady => 3) ∧
      shows 2 s.line.position ∧ shows 3 s.line.speed ∧ shows 4 s.line.reference ∧
      shows 5 s.line.target ∧ shows 6 s.bands.queue.length ∧ lot 7 s.profiles.current ∧
      shows 8 (match s.profiles.current with | none => -1 | some x => x.fabric.val) ∧
      lot 9 s.profiles.heat ∧ lot 10 s.profiles.nip ∧ flag 11 s.pins.nipFb ∧
      flag 12 s.pins.estop ∧ flag 13 s.pins.guardClosed ∧ flag 14 s.react.lock ∧
      shows 15 (match s.meas.lastChannel with | none => -1 | some c => c.val)) ∧
    (∀ c : Fin 16,
      let ch := s.meas.channels[c]
      shows (36 + 4 * c.val) ch.raw ∧ shows (37 + 4 * c.val) ch.scaled ∧
      shows (38 + 4 * c.val) ch.processed ∧
      shows (39 + 4 * c.val)
        ((match ch.status with | .ok => 0 | .openCircuit => 1 | .shorted => 2) +
          (if ch.stale = true then 8 else 0) +
          16 * (match ch.mode with | .normal => 0 | .forced => 1 | .disabled => 2)) ∧
      shows (105 + 6 * c.val) ch.zeroCorr) ∧
    (∀ k : Fin 10, shows (209 + 8 * k.val) (s.loops.loops[k]).setpoint ∧
      shows (211 + 8 * k.val) (s.loops.loops[k]).i) ∧
    shows 302 s.line.reference ∧
    (∀ (t : Fin 4) (k : Fin 10), k.val = 6 + t.val →
      shows (303 + t.val) (Int.fdiv (s.line.reference * (1000 + (s.loops.loops[k]).u)) 1000)) ∧
    (∀ n : Fin 5, shows (315 + 6 * n.val) (s.loops.outputs[n]).counts) ∧
    (∀ z : Fin 6,
      let ring := s.bands.history[z]
      shows (296 + z.val) (s.loops.zones[z]).active ∧ shows (340 + 2 * z.val) ring.length ∧
      shows (341 + 2 * z.val)
        (if ring = [] then 4096 else Int.fdiv (ring.map HistEntry.ratio).sum ring.length)) ∧
    (shows 360 (match s.meas.scan with
        | .idle => 0 | .continuous => 1 | .single => 2 | .halting => 3) ∧
      shows 361 s.meas.first.val ∧ shows 362 s.meas.last.val ∧ shows 363 s.meas.sampleTime ∧
      shows 364 (match s.line.nip with
        | .opened => 0 | .closing => 1 | .closed => 2 | .lost => 3 | .opening => 4) ∧
      flag 365 s.line.feed ∧ flag 366 s.line.beacon ∧ flag 367 s.line.heatHold)

/-- R47, R49 to R51: how one pair is judged: NO_SUCH, READ_ONLY, MODE, or taken and clamped to the plain
range of the point; a refused pair leaves the state as it was. R52, R70: the settings whose ranges have
conditions. The writes that do more than store: counts_per_mm rescales the count (R4; the position it keeps
is the published one, log 38), the points of a FORCED channel (R45), link_silence acts on the timing (R203),
standby_temp on a held setpoint (R66; with no heat lot it stays 0, the model's choice between R66's cases,
log 40), overheat_margin on the relative limits (R75), and the mapping of an output on its counts (R81). -/
def Obligations.PointWritesJudged : Prop :=
  (∀ (n : Nat) (v : Int) (s : State),
    let r := writeByNumber n v s
    (Point.ofNumber n = none → r = ⟨s, .noSuch⟩) ∧
    (∀ p, Point.ofNumber n = some p → p.cls = .live → r = ⟨s, .readOnly⟩) ∧
    (∀ p, Point.ofNumber n = some p → p.cls = .guarded → s.line.mode ≠ .off → r = ⟨s, .mode⟩) ∧
    (∀ c : Fin 16, (s.meas.channels[c]).mode ≠ .forced →
      n = 36 + 4 * c.val ∨ n = 37 + 4 * c.val ∨ n = 38 + 4 * c.val → r = ⟨s, .readOnly⟩) ∧
    (r.status ≠ .ok → r.status ≠ .clamped → r.state = s) ∧
    ∀ p, Point.ofNumber n = some p →
      p.cls = .setting ∨ (p.cls = .guarded ∧ s.line.mode = .off) →
      p ≠ .linkSilence → p ≠ .heaterWindow → (∀ k, p ≠ .loopMode k) → (∀ k, p ≠ .loopOutput k) →
      (∀ k, p ≠ .loopOutMin k) → (∀ k, p ≠ .loopOutMax k) → (∀ o, p ≠ .outSource o) →
      readPoint r.state p = clampTo (plainRange p).1 (plainRange p).2 v ∧
      (r.status = .ok ↔ (plainRange p).1 ≤ v ∧ v ≤ (plainRange p).2) ∧
      (r.status = .ok ∨ r.status = .clamped)) ∧
  (∀ (v : Int) (s : State),
    (let r := writeLinkSilence v s
     let w : Int := if v ≤ 0 then 0 else if v < 500 then 500 else min v 60000
     let arms : Prop := s.line.mode ≠ .off ∧ s.link.linkSilence = 0
     r.state = { s with
       link.linkSilence := w
       link.silenceArmed := (if w = 0 then false else if arms then true else s.link.silenceArmed)
       link.silence := if w = 0 then none else s.link.silence } ∧
      (r.status = .ok ↔ v = 0 ∨ (500 ≤ v ∧ v ≤ 60000))) ∧
    (let r := writeHeaterWindow v s
     r.state = { s with loops.heaterWindow := Int.fdiv (max 500 (min v 10000)) 100 * 100 } ∧
      (r.status = .ok ↔ 500 ≤ v ∧ v ≤ 10000 ∧ v % 100 = 0)) ∧
    ∀ k : Fin 10,
      let l := s.loops.loops[k]
      let lo : Int := if k.val < 6 then 0 else -200
      let hi : Int := if k.val < 6 then 1000 else 200
      ((let a := (writeOutMin k v s).state.loops.loops[k]
        a.outMin = min (max lo (min v hi)) l.outMax ∧ a.outMax = l.outMax ∧ a.outMin ≤ a.u ∧
          a.u ≤ a.outMax ∧ 256 * a.outMin ≤ a.i ∧ a.i ≤ 256 * a.outMax) ∧
       (let a := (writeOutMax k v s).state.loops.loops[k]
        a.outMax = max (max lo (min v hi)) l.outMin ∧ a.outMin = l.outMin ∧ a.outMin ≤ a.u ∧
          a.u ≤ a.outMax ∧ 256 * a.outMin ≤ a.i ∧ a.i ≤ 256 * a.outMax)) ∧
      (l.mode = .manual → l.outMin ≤ l.outMax →
        (writeLoopOutput k v s).state =
          { s with loops.loops := upd s.loops.loops k { l with u := max l.outMin (min v l.outMax) } }) ∧
      (l.mode ≠ .manual → writeLoopOutput k v s = ⟨s, .mode⟩) ∧
      (LoopMode.ofInt (clampTo 0 3 v) = baseMode s k →
        ((writeLoopMode k v s).state.loops.loops[k]).override = none ∧
        ((writeLoopMode k v s).state.loops.loops[k]).mode = ownMode k (baseMode s k) l.stale) ∧
      (LoopMode.ofInt (clampTo 0 3 v) ≠ baseMode s k → 2 ≤ v → baseMode s k ≠ .off →
        ((writeLoopMode k v s).state.loops.loops[k]).override = some (LoopMode.ofInt (clampTo 0 3 v)) ∧
        ((writeLoopMode k v s).state.loops.loops[k]).mode = LoopMode.ofInt (clampTo 0 3 v)) ∧
      (LoopMode.ofInt (clampTo 0 3 v) ≠ baseMode s k → v < 2 ∨ baseMode s k = .off →
        writeLoopMode k v s = ⟨s, .mode⟩)) ∧
  (∀ (c : Fin 16) (v : Int) (s : State), (s.meas.channels[c]).mode = .forced →
    let ch := s.meas.channels[c]
    let put : Channel → State := fun x => { s with meas.channels := upd s.meas.channels c x }
    let wideScaled := if 6 ≤ c.val ∧ c.val ≤ 9 then v + ch.zeroCorr else v
    let scaled := max (-2147483648) (min wideScaled 2147483647)
    let wideRaw :=
      if ch.scale = 0 then 0
      else Int.fdiv (2 * ((scaled - ch.offset) * 65536) + ch.scale) (2 * ch.scale) - ch.trim
    let raw := max 0 (min wideRaw 65535)
    writeByNumber (36 + 4 * c.val) v s =
      ⟨put { ch with raw := max 0 (min v 65535) }, if 0 ≤ v ∧ v ≤ 65535 then .ok else .clamped⟩ ∧
    writeByNumber (37 + 4 * c.val) v s = ⟨put { ch with scaled := v }, .ok⟩ ∧
    writeByNumber (38 + 4 * c.val) v s =
      ⟨put { ch with processed := v, scaled := scaled, raw := raw },
        if scaled = wideScaled ∧ raw = wideRaw then .ok else .clamped⟩) ∧
  (∀ (v : Int) (s : State),
    (s.line.mode = .off →
      let w := max 1 (min v 1000)
      (writeByNumber 16 v s).state =
        if w = s.line.countsPerMm then s
        else { s with
          line.countsPerMm := w
          line.count := s.line.position * w
          line.sample := s.line.position * w }) ∧
    (let w := max 50 (min v 500)
     let r := (writeByNumber 29 v s).state
     (s.profiles.heat = none → r = { s with loops.overheatMargin := w }) ∧
      ∀ l, s.profiles.heat = some l →
        let target := (fabricOf s l.fabric).tSet + w
        r = { s with
          loops.overheatMargin := w
          loops.zones := tab fun z =>
            { s.loops.zones[z] with
              relLimit := some (match (s.loops.zones[z]).relLimit with
                | none => target
                | some x => max x target) } }) ∧
    (let r := (writeByNumber 31 v s).state
     ∀ k : Fin 10, (r.loops.loops[k]).setpoint =
      if s.line.heatHold = true ∧ k.val < 6 then
        (if s.profiles.heat = none then 0 else max 500 (min v 2300))
      else (s.loops.loops[k]).setpoint)) ∧
  ∀ (n : Fin 5) (v : Int) (s : State),
    let o := s.loops.outputs[n]
    let sourced := { s with loops.outputs := upd s.loops.outputs n { o with source := v } }
    let back : Prop := chainLeadsTo s n 6 v = true
    (Point.ofInt v = none ∨ back → writeByNumber (310 + 6 * n.val) v s = ⟨s, .range⟩) ∧
    (∀ q, Point.ofInt v = some q → ¬back →
      let taken : AnalogOut := { o with source := v, counts := countsFor o (readPoint sourced q) }
      writeByNumber (310 + 6 * n.val) v s =
        ⟨{ s with loops.outputs := upd s.loops.outputs n taken }, .ok⟩) ∧
    (∀ fuel : Nat,
      (∀ m : Fin 5, v = (Point.outCounts m).number →
        (chainLeadsTo s n (fuel + 1) v = true ↔
          m = n ∨ chainLeadsTo s n fuel (s.loops.outputs[m]).source = true)) ∧
      ((∀ m : Fin 5, v ≠ (Point.outCounts m).number) → chainLeadsTo s n fuel v = false)) ∧
    ∀ k : Nat, 311 ≤ k → k ≤ 314 → ∀ q, Point.ofInt o.source = some q → q ≠ .outCounts n →
      let r := (writeByNumber (k + 6 * n.val) v s).state
      (r.loops.outputs[n]).counts = countsFor r.loops.outputs[n] (readPoint r q)

/-! ## Lots and profiles -/

/-- R91: LOT declares a new current lot with the next sequence number and finds the lots afresh, after the
points of the declaration have been handed over with the levels that this triggers (the model's choice, log
48). R93 to R95: the lot at a place is that of the newest band that has reached it and not P_exit, else the
current lot; a changed heat lot or nip lot is stored, followed by the loops, and raises its event, the heat
lot's, which is taken whole, before the nip lot's is found. The event is recorded before the points of its
lot are handed over (these two are the model's choice, log 50). Each finding raises its event once, in the
way it is given, where it ends with a lot. -/
def Obligations.LotsDeclaredAndFound : Prop :=
  (∀ (tag f : Byte) (s : State), takeable ⟨0x05, tag, [f]⟩ s = true →
    let d := dequeue s
    let n := if s.profiles.seqCounter = 65535 then 1 else s.profiles.seqCounter + 1
    (8 ≤ f.toNat → exec (.lot tag [f]) s = .next (putReply ⟨0x85, tag, [11]⟩ d)) ∧
    ∀ slot : Fin 8, f.toNat = slot.val →
      (s.profiles.fabric[slot] = none →
        exec (.lot tag [f]) s = .next (putReply ⟨0x85, tag, [4]⟩ d)) ∧
      (s.profiles.fabric[slot] ≠ none →
        exec (.lot tag [f]) s =
          .next (putReply ⟨0x85, tag, 0 :: leBytes 2 n⟩ (findLots (commit d { d with
            profiles.seqCounter := n
            profiles.current := some ⟨n, slot⟩ }))))) ∧
  (∀ s : State,
    (∀ (place : Int) (before after : List Band) (b : Band), s.bands.queue = before ++ b :: after →
      countsAt s place b = true → (∀ x ∈ after, countsAt s place x = false) →
      lotAt s place = (some ⟨b.lotSeq, b.fabric⟩, b.id)) ∧
    (∀ place : Int, (∀ x ∈ s.bands.queue, countsAt s place x = false) →
      lotAt s place = (s.profiles.current, 0)) ∧
    (∀ (place p : Int) (b : Band), b.start = some p →
      (countsAt s place b = true ↔
        place ≤ s.line.position - p - Int.fdiv b.length 2 ∧
          s.line.position - p - Int.fdiv b.length 2 <
            s.line.pIn + s.line.lWrap + s.line.pExitMargin)) ∧
    (let found := (lotAt s (s.line.pIn - s.line.heatLead)).1
     (found = s.profiles.heat → findHeatLot s = s) ∧
      (found ≠ s.profiles.heat →
        (findHeatLot s).profiles = { s.profiles with heat := found } ∧
        (∀ l, found = some l → hasKind (findHeatLot s).events.set .lotAtHeat = true ∧
          (s.line.heatHold = false → ∀ k : Fin 10, k.val < 6 →
            ((findHeatLot s).loops.loops[k]).setpoint = (fabricOf s l.fabric).tSet)))) ∧
    (let found := (lotAt s s.line.pIn).1
     (found = s.profiles.nip → findNipLot s = s) ∧
      (found ≠ s.profiles.nip →
        (findNipLot s).profiles = { s.profiles with nip := found } ∧
        (∀ l, found = some l → hasKind (findNipLot s).events.set .lotAtNip = true ∧
          (∀ x : Fin 4, ((findNipLot s).loops.loops[spanLoop x]).setpoint =
            (fabricOf s l.fabric).tension[x]) ∧
          (s.line.mode = .running → s.line.phase = .ramping ∨ s.line.phase = .steady →
            (s.profiles.nip.map fun o => (fabricOf s o.fabric).vRun) ≠ some (fabricOf s l.fabric).vRun →
            (findNipLot s).line.target = clampTo 0 s.line.vMax (fabricOf s l.fabric).vRun ∧
            (findNipLot s).line.owner = .line ∧ (findNipLot s).line.rateSource = .rampRate))))) ∧
  ∀ s : State,
    (let s1 := commit s (findHeatLot s)
     findLots s = commit s1 (findNipLot s1)) ∧
    findHeatLot s = findHeatLotBy record s ∧ findNipLot s = findNipLotBy record s ∧
    ∀ raising : EventKind → Nat → State → State,
      let quiet : EventKind → Nat → State → State := fun _ _ x => x
      (let found := lotAt s (s.line.pIn - s.line.heatLead)
       findHeatLotBy raising s =
        if found.1 ≠ none ∧ found.1 ≠ s.profiles.heat then
          raising .lotAtHeat found.2 (findHeatLotBy quiet s)
        else findHeatLotBy quiet s) ∧
      (let found := lotAt s s.line.pIn
       findNipLotBy raising s =
        if found.1 ≠ none ∧ found.1 ≠ s.profiles.nip then
          raising .lotAtNip found.2 (findNipLotBy quiet s)
        else findNipLotBy quiet s)

/-- R85, R86, R88: PROFILE_WRITE and PROFILE_ERASE of a slot, taken when it is not in use and refused with
IN_USE when it is. -/
def Obligations.ProfileSlotsWritten : Prop :=
  ∀ (tag slot m : Byte) (name fields : List Byte) (s : State),
    let d := dequeue s
    (∀ c : Fin 16, slot.toNat = c.val → name.length = m.toNat → name.length ≤ 16 →
      fields.length = 276 → (∀ b ∈ name, 0x20 ≤ b.toNat ∧ b.toNat ≤ 0x7E) →
      takeable ⟨0x06, tag, 0 :: slot :: m :: (name ++ fields)⟩ s = true →
      (colourInUse s c = true →
        exec (.profileWrite tag (0 :: slot :: m :: (name ++ fields))) s =
          .next (putReply ⟨0x86, tag, [8]⟩ d)) ∧
      (colourInUse s c = false →
        let p := decColour name fields
        exec (.profileWrite tag (0 :: slot :: m :: (name ++ fields))) s =
          .next (putReply ⟨0x86, tag, [if clampColour p = p then 0 else 1]⟩ { d with
            profiles.colour := upd s.profiles.colour c (some (clampColour p)) }))) ∧
    (∀ f : Fin 8, slot.toNat = f.val → name.length = m.toNat → name.length ≤ 16 →
      fields.length = 32 → (∀ b ∈ name, 0x20 ≤ b.toNat ∧ b.toNat ≤ 0x7E) →
      takeable ⟨0x06, tag, 1 :: slot :: m :: (name ++ fields)⟩ s = true →
      (fabricInUse s f = true →
        exec (.profileWrite tag (1 :: slot :: m :: (name ++ fields))) s =
          .next (putReply ⟨0x86, tag, [8]⟩ d)) ∧
      (fabricInUse s f = false →
        let p := decFabric name fields
        exec (.profileWrite tag (1 :: slot :: m :: (name ++ fields))) s =
          .next (putReply ⟨0x86, tag, [if clampFabric p = p then 0 else 1]⟩ { d with
            profiles.fabric := upd s.profiles.fabric f (some (clampFabric p)) }))) ∧
    (∀ c : Fin 16, slot.toNat = c.val → takeable ⟨0x08, tag, [0, slot]⟩ s = true →
      exec (.profileErase tag [0, slot]) s =
        if s.profiles.colour[c] = none then .next (putReply ⟨0x88, tag, [4]⟩ d)
        else if colourInUse s c = true then .next (putReply ⟨0x88, tag, [8]⟩ d)
        else .next (putReply ⟨0x88, tag, [0]⟩ { d with
          profiles.colour := upd s.profiles.colour c none })) ∧
    ∀ f : Fin 8, slot.toNat = f.val → takeable ⟨0x08, tag, [1, slot]⟩ s = true →
      exec (.profileErase tag [1, slot]) s =
        if s.profiles.fabric[f] = none then .next (putReply ⟨0x88, tag, [4]⟩ d)
        else if fabricInUse s f = true then .next (putReply ⟨0x88, tag, [8]⟩ d)
        else .next (putReply ⟨0x88, tag, [0]⟩ { d with
          profiles.fabric := upd s.profiles.fabric f none })

/-- R86, R89, Tables 5-1 and 5-2: a record whose fields fit signed 32 bits is what its own bytes spell, and
a clamped record is in range and is clamped no further. The order of the yield nodes on the link is the
model's choice (log 19). -/
def Obligations.ProfileRecordsRoundTrip : Prop :=
  (∀ p : ColourProfile,
    fits32 p.tFloor = true → fits32 p.dLo = true → fits32 p.step = true →
    (∀ i : Fin 6, fits32 p.yRef[i] = true ∧ fits32 p.bMax[i] = true ∧
      ∀ k : Fin 9, fits32 (p.nodes[i])[k] = true) →
    (encColour p).length = 276 ∧ decColour p.name (encColour p) = p) ∧
  (∀ p : FabricProfile,
    fits32 p.tSet = true → fits32 p.vRun = true → (∀ t : Fin 4, fits32 p.tension[t] = true) →
    fits32 p.lTotal = true → fits32 p.dScorch = true →
    (encFabric p).length = 32 ∧ decFabric p.name (encFabric p) = p) ∧
  (∀ p : ColourProfile,
    let q := clampColour p
    clampColour q = q ∧ q.name = p.name ∧ 1000 ≤ q.tFloor ∧ q.tFloor ≤ 2000 ∧ 0 ≤ q.dLo ∧
    q.dLo ≤ 8000000 ∧ 1 ≤ q.step ∧ q.step ≤ 1000000 ∧
    ∀ i : Fin 6, 1 ≤ q.yRef[i] ∧ q.yRef[i] ≤ 1000 ∧ 0 ≤ q.bMax[i] ∧ q.bMax[i] ≤ 4096 ∧
      ∀ k : Fin 9, 0 ≤ (q.nodes[i])[k] ∧ (q.nodes[i])[k] ≤ 1000) ∧
  ∀ p : FabricProfile,
    let q := clampFabric p
    clampFabric q = q ∧ q.name = p.name ∧ 1200 ≤ q.tSet ∧ q.tSet ≤ 2300 ∧ 50 ≤ q.vRun ∧
    q.vRun ≤ 1200 ∧ (∀ t : Fin 4, 0 ≤ q.tension[t] ∧ q.tension[t] ≤ 30000) ∧ 4096 ≤ q.lTotal ∧
    q.lTotal ≤ 24576 ∧ 1 ≤ q.dScorch ∧ q.dScorch ≤ 8388607

/-! ## Bands and tickets -/

/-- R104 to R106, R145: TICKET_REQ, by its checks in order: an accepted band joins the queue with the first
id after the counter, which runs from 65535 to 1, that no queued band holds, and an idle engine takes the
oldest TICKETING band, its snapshot before the band count is handed over (the model's choice, log 52). -/
def Obligations.TicketRequestAccepted : Prop :=
  ∀ (tag l0 l1 c : Byte) (s : State), takeable ⟨0x09, tag, [l0, l1, c]⟩ s = true →
    let d := dequeue s
    let length : Int := l0.toNat + 256 * l1.toNat
    (s.profiles.current = none →
      exec (.ticketReq tag [l0, l1, c]) s = .next (putReply ⟨0x89, tag, [13]⟩ d)) ∧
    (s.profiles.current ≠ none → (∀ slot : Fin 16, c.toNat = slot.val → s.profiles.colour[slot] = none) →
      exec (.ticketReq tag [l0, l1, c]) s = .next (putReply ⟨0x89, tag, [4]⟩ d)) ∧
    ∀ (lot : Lot) (slot : Fin 16) (p : ColourProfile), s.profiles.current = some lot →
      c.toNat = slot.val → s.profiles.colour[slot] = some p →
      let target := max 0 ((fabricOf s lot.fabric).tSet - p.tFloor) *
        Int.fdiv (s.line.lWrap * 100) (fabricOf s lot.fabric).vRun
      (length < 200 ∨ 5000 < length →
        exec (.ticketReq tag [l0, l1, c]) s = .next (putReply ⟨0x89, tag, [11]⟩ d)) ∧
      (200 ≤ length → length ≤ 5000 → target ≤ 0 →
        exec (.ticketReq tag [l0, l1, c]) s = .next (putReply ⟨0x89, tag, [14]⟩ d)) ∧
      (200 ≤ length → length ≤ 5000 → 0 < target → 64 ≤ s.bands.queue.length →
        exec (.ticketReq tag [l0, l1, c]) s = .next (putReply ⟨0x89, tag, [9]⟩ d)) ∧
      (200 ≤ length → length ≤ 5000 → 0 < target → s.bands.queue.length < 64 → 4 ≤ ticketingCount s →
        exec (.ticketReq tag [l0, l1, c]) s = .next (putReply ⟨0x89, tag, [7]⟩ d)) ∧
      (200 ≤ length → length ≤ 5000 → 0 < target → s.bands.queue.length < 64 → ticketingCount s < 4 →
        ∃ (id : Nat) (b : Band) (t : State),
          exec (.ticketReq tag [l0, l1, c]) s =
            .next (putReply ⟨0x89, tag, 0 :: (leBytes 2 id ++ enc32 target)⟩ (commit d t)) ∧
          (let next : Nat → Nat := fun n => if n = 65535 then 1 else n + 1
           ∃ k : Nat, id = next^[k + 1] s.bands.idCounter ∧
            ∀ j < k, ∃ x ∈ s.bands.queue, x.id = next^[j + 1] s.bands.idCounter) ∧
          (∀ x ∈ s.bands.queue, x.id ≠ id) ∧ 1 ≤ id ∧
          (s.bands.idCounter ≤ 65535 → id ≤ 65535) ∧
          b = { id := id, state := .ticketing, lotSeq := lot.seq, fabric := lot.fabric, colour := slot,
                length := length, dTarget := target, start := none, ticket := none, acc := none,
                ratios := none, marks := BandMarks.empty } ∧
          t = startEngine { d with bands.queue := s.bands.queue ++ [b], bands.idCounter := id })

/-- R141, R142: an idle engine takes the oldest TICKETING band with a snapshot; a busy one, or a queue
without such a band, changes nothing. R154, R156: a completion writes the ticket, offers its report (a
discard's REPORTS_DROPPED is taken whole), raises TICKET_DONE whole, and starts the next computation. -/
def Obligations.TicketsStartAndComplete : Prop :=
  (∀ s : State,
    (∀ f, s.engine.inFlight = some f → startEngine s = s) ∧
    ((∀ b ∈ s.bands.queue, b.state ≠ .ticketing) → startEngine s = s) ∧
    ∀ (before after : List Band) (b : Band), s.engine.inFlight = none →
      s.bands.queue = before ++ b :: after → b.state = .ticketing →
      (∀ x ∈ before, x.state ≠ .ticketing) →
      startEngine s = { s with
        engine.inFlight := some ⟨b.id,
          { counts := tab fun z => (s.bands.history[z]).length
            means := tab fun z => readPoint s (.histMean z)
            gMin := s.engine.gMin
            gMax := s.engine.gMax
            dTarget := b.dTarget
            colour := colourOf s b.colour
            lTotal := (fabricOf s b.fabric).lTotal }⟩ }) ∧
  (∀ (s : State) (f : InFlight) (b : Band), s.runs = true → s.engine.inFlight = some f →
    findBand s f.band = some b →
    let t := ticketOf f.snapshot
    let written := { s with
      bands.queue := s.bands.queue.map fun x =>
        if x.id = f.band then { x with ticket := some t, state := .ticketed } else x }
    let reported := raiseEvent .ticketDone f.band
      (settle (offerReport (.ticket b.id b.lotSeq b.fabric b.colour b.dTarget t) written))
    exec .ticketCompletion s =
        .next (commit s (startEngine { reported with engine.inFlight := none })) ∧
      reported.bands.queue = written.bands.queue ∧ hasKind reported.events.set .ticketDone = true)

/-- R146 to R152: the figures of a lane's ticket, and the bounds that hold them: the predicted dose, the
yield between two nodes, the gain and its clamp, the limit factor, and the three marks. -/
def Obligations.TicketWithinLimits : Prop :=
  ∀ (sn : Snapshot) (z : Fin 6), 2048 ≤ sn.gMin → sn.gMin ≤ sn.gMax → sn.gMax ≤ 8192 →
    4096 ≤ sn.lTotal → 1 ≤ sn.colour.step →
    (∀ i : Fin 6, 0 ≤ sn.colour.bMax[i] ∧ sn.colour.bMax[i] ≤ 4096 ∧
      ∀ k : Fin 9, 0 ≤ (sn.colour.nodes[i])[k] ∧ (sn.colour.nodes[i])[k] ≤ 1000) →
    let t := laneTicket sn z
    let y : Fin 6 → Int := fun i => yieldAt sn.colour sn.colour.nodes[i] t.dPred
    let wide : Fin 6 → Int := fun i => Int.fdiv (sn.colour.yRef[i] * 4096 + Int.fdiv (y i) 2) (y i)
    let sum := ((List.finRange 6).map fun i =>
      Int.fdiv (sn.colour.bMax[i] * t.gains[i] + 2048) 4096).sum
    (∀ i : Fin 6,
      let node : Fin 9 → Int := fun k => (sn.colour.nodes[i])[k]
      (t.dPred ≤ sn.colour.dLo → y i = node 0) ∧
      (sn.colour.dLo + 8 * sn.colour.step ≤ t.dPred → y i = node 8) ∧
      ∀ k : Fin 8,
        let r := t.dPred - sn.colour.dLo - k.val * sn.colour.step
        0 ≤ r → r < sn.colour.step →
        y i = Int.fdiv (node k.castSucc * (sn.colour.step - r) + node k.succ * r +
          Int.fdiv sn.colour.step 2) sn.colour.step) ∧
    t.dPred = (if sn.counts[z] = 0 then sn.dTarget else Int.fdiv (sn.dTarget * sn.means[z]) 4096) ∧
    (∀ i : Fin 6, 0 ≤ y i ∧ y i ≤ 1000 ∧ sn.gMin ≤ t.gains[i] ∧ t.gains[i] ≤ sn.gMax ∧
      (y i = 0 → t.gains[i] = sn.gMax) ∧
      (y i ≠ 0 → t.gains[i] = max sn.gMin (min sn.gMax (wide i)))) ∧
    0 ≤ sum ∧ sum ≤ 49152 ∧ 341 ≤ t.k ∧ t.k ≤ 4096 ∧
    (sum ≤ sn.lTotal → t.k = 4096) ∧
    (sn.lTotal < sum → t.k = Int.fdiv (sn.lTotal * 4096) sum ∧ t.k < 4096 ∧ sum * t.k ≤ sn.lTotal * 4096) ∧
    (t.marks.noHist = true ↔ sn.counts[z] = 0) ∧ (t.marks.lowYield = true ↔ ∃ i, y i = 0) ∧
    (t.marks.clamp = true ↔ ∃ i, y i ≠ 0 ∧ (wide i < sn.gMin ∨ sn.gMax < wide i))

/-- R108, R109: BAND_START, by its checks in order: the oldest unstarted band, TICKETED, starts where the
web stands, and the lots are found afresh, after the start has been handed over (the model's choice, log
48). Check 6: with no started band the web has cleared. -/
def Obligations.BandStarted : Prop :=
  ∀ (tag i0 i1 : Byte) (s : State), takeable ⟨0x0A, tag, [i0, i1]⟩ s = true →
    let d := dequeue s
    let id := i0.toNat + 256 * i1.toNat
    (s.line.mode = .off ∨ s.line.mode = .warming ∨ s.line.mode = .safe →
      exec (.bandStart tag [i0, i1]) s = .next (putReply ⟨0x8A, tag, [6]⟩ d)) ∧
    (s.line.mode ≠ .off → s.line.mode ≠ .warming → s.line.mode ≠ .safe →
      (findBand s id = none →
        exec (.bandStart tag [i0, i1]) s = .next (putReply ⟨0x8A, tag, [4]⟩ d)) ∧
      ∀ b, findBand s id = some b →
        (b.start ≠ none → exec (.bandStart tag [i0, i1]) s = .next (putReply ⟨0x8A, tag, [12]⟩ d)) ∧
        ∀ older newer, s.bands.queue = older ++ b :: newer → b.start = none →
          ((∃ x ∈ older, x.start = none) → (∀ x ∈ older, x.id ≠ id) →
            exec (.bandStart tag [i0, i1]) s = .next (putReply ⟨0x8A, tag, [10]⟩ d)) ∧
          ((∀ x ∈ older, x.start ≠ none) →
            (b.state ≠ .ticketed →
              exec (.bandStart tag [i0, i1]) s = .next (putReply ⟨0x8A, tag, [12]⟩ d)) ∧
            (b.state = .ticketed → webCleared s = false →
              exec (.bandStart tag [i0, i1]) s = .next (putReply ⟨0x8A, tag, [10]⟩ d)) ∧
            (b.state = .ticketed → webCleared s = true →
              exec (.bandStart tag [i0, i1]) s =
                .next (putReply ⟨0x8A, tag, 0 :: enc32 s.line.position⟩ (findLots (commit d { d with
                  bands.queue := s.bands.queue.map fun x =>
                    if x.id = id then { x with start := some s.line.position, state := .onWeb }
                    else x })))))) ∧
    ((∀ x ∈ s.bands.queue, x.start = none) → webCleared s = true) ∧
    ∀ x p newer older, s.bands.queue = older ++ x :: newer → x.start = some p →
      (∀ y ∈ newer, y.start = none) → webCleared s = decide (p + x.length ≤ s.line.position)

/-- R117, R118, R157: BAND_CANCEL removes an unstarted band, with the computation of its ticket, and finds
the lots afresh, after the band count has been handed over (the model's choice, log 48), which follows the
snapshot of an engine that takes its next band (log 52); BAND_VOID marks a started band that has not
settled. -/
def Obligations.BandCancelledOrVoided : Prop :=
  ∀ (tag i0 i1 : Byte) (s : State),
    let d := dequeue s
    let id := i0.toNat + 256 * i1.toNat
    let without := { d with bands.queue := s.bands.queue.filter fun x => x.id != id }
    (takeable ⟨0x0B, tag, [i0, i1]⟩ s = true →
      (findBand s id = none →
        exec (.bandCancel tag [i0, i1]) s = .next (putReply ⟨0x8B, tag, [4]⟩ d)) ∧
      ∀ b, findBand s id = some b →
        (b.state ≠ .ticketing → b.state ≠ .ticketed →
          exec (.bandCancel tag [i0, i1]) s = .next (putReply ⟨0x8B, tag, [12]⟩ d)) ∧
        (b.state = .ticketing ∨ b.state = .ticketed →
          ((∃ f, s.engine.inFlight = some f ∧ f.band = id) →
            exec (.bandCancel tag [i0, i1]) s =
              .next (putReply ⟨0x8B, tag, [0]⟩
                (findLots (commit d (startEngine { without with engine.inFlight := none }))))) ∧
          ((∀ f, s.engine.inFlight = some f → f.band ≠ id) →
            exec (.bandCancel tag [i0, i1]) s =
              .next (putReply ⟨0x8B, tag, [0]⟩ (findLots (commit d without)))))) ∧
    (takeable ⟨0x0C, tag, [i0, i1]⟩ s = true →
      (findBand s id = none →
        exec (.bandVoid tag [i0, i1]) s = .next (putReply ⟨0x8C, tag, [4]⟩ d)) ∧
      ∀ b, findBand s id = some b →
        (b.state ≠ .onWeb → b.state ≠ .onDrum →
          exec (.bandVoid tag [i0, i1]) s = .next (putReply ⟨0x8C, tag, [12]⟩ d)) ∧
        (b.state = .onWeb ∨ b.state = .onDrum →
          exec (.bandVoid tag [i0, i1]) s =
            .next (putReply ⟨0x8C, tag, [0]⟩ { d with
              bands.queue := s.bands.queue.map fun x =>
                if x.id = id then { x with marks.void := true } else x })))

/-- R110 to R114: a position change works the started bands one after another, oldest first; what it does
to one of them, by its state and midpoint, a change that carries it past P_out or P_exit at once included. A
removal is handed over, with the levels it triggers, as it is made (the model's choice, log 48). -/
def Obligations.BandFollowsWeb : Prop :=
  (∀ s : State, trackBands s =
    ((s.bands.queue.filter fun b => b.start.isSome).map Band.id).foldl trackBand s) ∧
  ∀ (s : State) (id : Nat) (b : Band) (p : Int), findBand s id = some b → b.start = some p →
    0 < s.line.lWrap → 0 ≤ s.line.pExitMargin →
    let mid := s.line.position - p - Int.fdiv b.length 2
    let pOut := s.line.pIn + s.line.lWrap
    let pExit := pOut + s.line.pExitMargin
    let enter : Band → Band := fun x => { x with
      state := .onDrum
      acc := some (match x.acc with
        | some a => a
        | none => tab fun _ => 0) }
    let removed : State → State := fun r =>
      commit r { r with bands.queue := r.bands.queue.filter fun x => x.id != id }
    (b.state = .onWeb → mid < s.line.pIn → trackBand s id = s) ∧
    (b.state = .onWeb → s.line.pIn ≤ mid → mid < pOut →
      trackBand s id = modifyBand id enter s) ∧
    (b.state = .onDrum → mid < s.line.pIn →
      trackBand s id =
        modifyBand id (fun x => { x with state := .onWeb, marks := { x.marks with reversed := true } }) s) ∧
    (b.state = .onDrum → s.line.pIn ≤ mid → mid < pOut → trackBand s id = s) ∧
    (b.state = .onWeb → pOut ≤ mid → mid < pExit →
      trackBand s id = settleBand (enter b) (modifyBand id enter s)) ∧
    (b.state = .onWeb → pExit ≤ mid →
      trackBand s id = removed (settleBand (enter b) (modifyBand id enter s))) ∧
    (b.state = .onDrum → pOut ≤ mid → mid < pExit → trackBand s id = settleBand b s) ∧
    (b.state = .onDrum → pExit ≤ mid → trackBand s id = removed (settleBand b s)) ∧
    (b.state = .settled → mid < pExit → trackBand s id = s) ∧
    (b.state = .settled → pExit ≤ mid → trackBand s id = removed s)

/-- R131 to R133, R135: a band settles: its ratios, DEV and OUT; then, each taken whole before the next, its
SETTLED report, DOSE_DEV, DOSE_OUT and BAND_SETTLED; then its lanes are offered to the history, unless one
of the seven marks bars the band: a lane inside 3072..5120 joins its ring of at most 8, and no entry enters
a ring otherwise. -/
def Obligations.BandSettles : Prop :=
  ∀ (s : State) (b : Band),
    let ratio : Fin 6 → Int := fun z =>
      min 65535 (Int.fdiv ((accOf b)[z] * 4096 + Int.fdiv b.dTarget 2) b.dTarget)
    let dev : Prop := ∃ z, s.bands.doseTol < |ratio z - 4096|
    let out : Prop := ∃ z, ratio z < 3072 ∨ 5120 < ratio z
    let d : Band := { b with
      state := .settled
      ratios := some (tab ratio)
      marks := { b.marks with
        dev := b.marks.dev || decide dev
        out := b.marks.out || decide out } }
    let s1 := modifyBand b.id (settledBand s.bands.doseTol) s
    let s2 := settle (offerReport
      (.settled b.id b.lotSeq b.fabric b.colour b.dTarget (accOf b) (tab ratio) d.marks) s1)
    let s3 := if dev then raiseEvent .doseDev b.id s2 else s2
    let s4 := if out then raiseEvent .doseOut b.id s3 else s3
    let u := raiseEvent .bandSettled b.id s4
    settledBand s.bands.doseTol b = d ∧
      settleBand b s = commit u (offerHistory b.id d.marks (tab ratio) u) ∧
      (findBand s b.id = some b → findBand u b.id = some d) ∧
      u.bands.history = s.bands.history ∧ u.profiles = s.profiles ∧ s.line.sameWeb u.line ∧
      (dev → hasKind u.events.set .doseDev = true) ∧ (out → hasKind u.events.set .doseOut = true) ∧
      hasKind u.events.set .bandSettled = true ∧
      (b.marks.stopped = true ∨ b.marks.uncertain = true ∨ b.marks.saturated = true ∨
          b.marks.scorched = true ∨ b.marks.reversed = true ∨ b.marks.lifted = true ∨
          b.marks.void = true →
        offerHistory b.id d.marks (tab ratio) u = u) ∧
      (b.marks.stopped = false → b.marks.uncertain = false → b.marks.saturated = false →
        b.marks.scorched = false → b.marks.reversed = false → b.marks.lifted = false →
        b.marks.void = false →
        offerHistory b.id d.marks (tab ratio) u = { u with
          bands.history := tab fun z =>
            if ratio z < 3072 ∨ 5120 < ratio z then s.bands.history[z]
            else (s.bands.history[z] ++ [(⟨ratio z, b.id⟩ : HistEntry)]).drop
              ((s.bands.history[z]).length + 1 - 8) }) ∧
      ∀ z : Fin 6,
        let h := (offerHistory b.id d.marks (tab ratio) u).bands.history[z]
        ((s.bands.history[z]).length ≤ 8 → h.length ≤ 8) ∧
        ∀ e ∈ h, e ∈ s.bands.history[z] ∨
          (e = ⟨ratio z, b.id⟩ ∧ 3072 ≤ ratio z ∧ ratio z ≤ 5120 ∧ b.marks.stopped = false ∧
            b.marks.uncertain = false ∧ b.marks.saturated = false ∧ b.marks.scorched = false ∧
            b.marks.reversed = false ∧ b.marks.lifted = false ∧ b.marks.void = false)

/-- R123: a temperature arrival works the bands that are ON_DRUM one after another, oldest first. R124 to
R128: what it does to one of them. -/
def Obligations.DoseIntegrated : Prop :=
  (∀ (z : Fin 6) (temp : Int) (held : Bool) (s : State), integrateDose z temp held s =
    ((s.bands.queue.filter fun b => b.state = .onDrum).map Band.id).foldl
      (integrateBand z temp held) s) ∧
  ∀ (z : Fin 6) (temp : Int) (held : Bool) (s : State) (id : Nat) (b : Band), findBand s id = some b →
    let excess := max 0 (temp - (colourOf s b.colour).tFloor)
    let acc := upd (accOf b) z (min 8388607 ((accOf b)[z] + excess))
    let nip := s.pins.nipFb = true
    let scorches : Prop := ∃ x : Fin 6, (fabricOf s b.fabric).dScorch ≤ acc[x]
    ∃ (t : State) (c : Band), integrateBand z temp held s id = t ∧ findBand t id = some c ∧
      c.state = b.state ∧ c.start = b.start ∧ c.ticket = b.ticket ∧ c.ratios = b.ratios ∧
      (nip → c.acc = some acc) ∧ (¬nip → c.acc = b.acc) ∧
      (c.marks.saturated = true ↔
        b.marks.saturated = true ∨ (nip ∧ 8388607 ≤ (accOf b)[z] + excess)) ∧
      (c.marks.scorched = true ↔ b.marks.scorched = true ∨ (nip ∧ scorches)) ∧
      (c.marks.stopped = true ↔ b.marks.stopped = true ∨ s.line.speed = 0) ∧
      (c.marks.lifted = true ↔ b.marks.lifted = true ∨ ¬nip) ∧
      (c.marks.uncertain = true ↔ b.marks.uncertain = true ∨ held = true) ∧
      c.marks.void = b.marks.void ∧ c.marks.reversed = b.marks.reversed ∧
      (nip → 8388607 ≤ (accOf b)[z] + excess → b.marks.saturated = false →
        hasKind t.events.set .saturated = true) ∧
      (nip → scorches → b.marks.scorched = false → hasKind t.events.set .scorch = true) ∧
      (∀ other, other ≠ id → findBand t other = findBand s other) ∧
      t.bands.history = s.bands.history ∧ t.profiles = s.profiles ∧ t.meas.scan = s.meas.scan ∧
      t.pins = s.pins

/-! ## Watches, levels and the executor -/

/-- R160, R161, Table 9-1: when a watch condition holds, what a watch does with a value handed to it, and
the expiry of its persistence timing. A trip is offered to the levels, and WATCH_TRIP is then raised and
taken whole before the offers that wait (R182; the offers' place is the model's, log 9). R162:
WATCH_WRITE, by its checks: a definition that is allowed replaces the former one, and the watch judges its
source's present value at once. -/
def Obligations.WatchesDefinedAndTripped : Prop :=
  ((∀ (d : WatchDef) (v : Int),
    (d.cond = .off → d.holds v = false) ∧
    (d.cond = .above → (d.holds v = true ↔ d.hi < v)) ∧
    (d.cond = .below → (d.holds v = true ↔ v < d.lo)) ∧
    (d.cond = .outside → (d.holds v = true ↔ v < d.lo ∨ d.hi < v)) ∧
    (d.cond = .inside → (d.holds v = true ↔ d.lo ≤ v ∧ v ≤ d.hi))) ∧
  (∀ (w : Fin 16) (v : Int) (s : State),
    let x := s.react.watches[w]
    let put : WatchState → State := fun st =>
      { s with react.watches := upd s.react.watches w { x with state := st } }
    (x.defn.holds v = false → judgeWatch w v s = put .clear) ∧
    (x.defn.holds v = true →
      (x.state = .clear → 0 < x.defn.persist → judgeWatch w v s = put .timing) ∧
      (x.state = .clear → x.defn.persist ≤ 0 →
        judgeWatch w v s = deferOffer (.trip w) (put .tripped)) ∧
      (x.state = .timing → judgeWatch w v s = put .timing) ∧
      (x.state = .tripped → judgeWatch w v s = put .tripped))) ∧
  (∀ (w : Fin 16) (s : State), s.runs = true →
    ((s.react.watches[w]).state = .timing →
      exec (.watchPersistenceExpiry w) s =
        .next (settle (deferOffer (.trip w) { s with
          react.watches := upd s.react.watches w { s.react.watches[w] with state := .tripped } }))) ∧
    ((s.react.watches[w]).state ≠ .timing → exec (.watchPersistenceExpiry w) s = .next s)) ∧
  ∀ (w : Fin 16) (s : State),
    let u := auction (setPending (triggeredByWatch s w) (.watch w) s)
    let t := record .watchTrip w.val { u with react.deferred := [] }
    takeOffer (.trip w) s = { t with react.deferred := t.react.deferred ++ u.react.deferred } ∧
    ∀ l, triggeredByWatch s w l = true ↔ (s.react.levels[l]).defn.trigger = .watch w) ∧
  (∀ (tag : Byte) (w : Fin 16) (source : Nat) (cond : WatchCond) (lo hi persist : BitVec 32) (s : State),
    source < 65536 →
    let payload := leBytes 1 w.val ++ leBytes 2 source ++ leBytes 1 cond.code ++
      leBytes 4 lo.toNat ++ leBytes 4 hi.toNat ++ leBytes 4 persist.toNat
    takeable ⟨0x14, tag, payload⟩ s = true →
    let d := dequeue s
    let allowed : Prop := Point.ofNumber source ≠ none ∧
      (cond = .outside ∨ cond = .inside → lo.toInt ≤ hi.toInt) ∧ 0 ≤ persist.toInt ∧
      persist.toInt ≤ 60000
    (∀ p, Point.ofNumber source = some p → allowed →
      exec (.watchWrite tag payload) s =
        .next (putReply ⟨0x94, tag, [0]⟩ (settle (judgeWatch w (readPoint s p) { d with
          react.watches := upd s.react.watches w
            { defn := { source := source, cond := cond, lo := lo.toInt, hi := hi.toInt,
                        persist := persist.toInt }
              state := .clear } })))) ∧
    (¬allowed → exec (.watchWrite tag payload) s = .next (putReply ⟨0x94, tag, [11]⟩ d)))

/-- R178: LEVEL_WRITE, by its checks 5 to 7: an allowed definition replaces that of a level that is neither
RUNNING nor WAITING, clears pending and the cause, and the level is ARMED or DORMANT. -/
def Obligations.LevelDefined : Prop :=
  ∀ (tag : Byte) (l : Fin 16) (f : LevelDef) (s : State), f.actions.length ≤ 4 →
    (∀ x v, .set x v ∈ f.actions → x < 65536 ∧ fits32 v = true) →
    (∀ x y, .copy x y ∈ f.actions → x < 65536 ∧ y < 65536) →
    (∀ t r, .ramp t r ∈ f.actions → 0 ≤ t ∧ t < 65536 ∧ 0 ≤ r ∧ r < 65536) →
    let payload := leBytes 1 l.val ++ encTrigger f.trigger ++ encFlag f.enable ++ encActions f.actions
    takeable ⟨0x16, tag, payload⟩ s = true →
    let d := dequeue s
    let t := { d with
      react.levels := upd s.react.levels l
        { defn := f, pending := false, cause := none, runPos := none, runCause := none } }
    let allowed : Prop :=
      (∀ x v, .set x v ∈ f.actions → ∃ p, Point.ofNumber x = some p ∧ p.cls = .setting) ∧
      (∀ x y, .copy x y ∈ f.actions →
        (∃ p, Point.ofNumber x = some p ∧ p.cls = .setting) ∧ Point.ofNumber y ≠ none) ∧
      (∀ u r, .ramp u r ∈ f.actions → u ≤ 2000 ∧ 1 ≤ r ∧ r ≤ 500) ∧
      (.safe ∈ f.actions → l.val = 0) ∧
      (l.val = 0 → f.enable = true ∧ f.actions = [.safe, .report])
    (allowed → levelState s l ≠ .running → levelState s l ≠ .waiting →
      exec (.levelWrite tag payload) s = .next (putReply ⟨0x96, tag, [0]⟩ t) ∧
      levelState t l = if f.enable = true then .armed else .dormant) ∧
    (allowed → levelState s l = .running ∨ levelState s l = .waiting →
      exec (.levelWrite tag payload) s = .next (putReply ⟨0x96, tag, [7]⟩ d)) ∧
    (¬allowed → exec (.levelWrite tag payload) s = .next (putReply ⟨0x96, tag, [11]⟩ d))

/-- R177, R179: the five operations of LEVEL_CMD. At a LOCK that suspends a level the points that the
suspension changes are handed over before the lock (the model's choice, log 54). -/
def Obligations.LevelCommandsTaken : Prop :=
  ∀ (tag n : Byte) (s : State),
    let d := dequeue s
    (15 < n.toNat →
      (takeable ⟨0x18, tag, [0, n]⟩ s = true →
        exec (.levelCmdEnable tag [0, n]) s = .next (putReply ⟨0x98, tag, [11]⟩ d)) ∧
      (takeable ⟨0x18, tag, [1, n]⟩ s = true →
        exec (.levelCmdDisable tag [1, n]) s = .next (putReply ⟨0x98, tag, [11]⟩ d)) ∧
      (takeable ⟨0x18, tag, [2, n]⟩ s = true →
        exec (.levelCmdFire tag [2, n]) s = .next (putReply ⟨0x98, tag, [11]⟩ d))) ∧
    (∀ l : Fin 16, n.toNat = l.val →
      let x := s.react.levels[l]
      let with' : Level → State := fun y => { d with react.levels := upd s.react.levels l y }
      (takeable ⟨0x18, tag, [0, n]⟩ s = true →
        exec (.levelCmdEnable tag [0, n]) s = .next (putReply ⟨0x98, tag, [0]⟩
          (if x.defn.enable = true then d
           else settle (auction (publish d (with' { x with defn := { x.defn with enable := true } })))))) ∧
      (takeable ⟨0x18, tag, [1, n]⟩ s = true →
        (l.val = 0 → exec (.levelCmdDisable tag [1, n]) s = .next (putReply ⟨0x98, tag, [11]⟩ d)) ∧
        (l.val ≠ 0 → levelState s l = .armed ∨ levelState s l = .waiting →
          exec (.levelCmdDisable tag [1, n]) s = .next (putReply ⟨0x98, tag, [0]⟩
            (with' { x with
              defn := { x.defn with enable := false }, runPos := none, runCause := none }))) ∧
        (l.val ≠ 0 → levelState s l = .dormant ∨ levelState s l = .posted →
          exec (.levelCmdDisable tag [1, n]) s = .next (putReply ⟨0x98, tag, [0]⟩ d)) ∧
        (l.val ≠ 0 → levelState s l = .running →
          ∃ t, exec (.levelCmdDisable tag [1, n]) s =
              .next (putReply ⟨0x98, tag, [0]⟩ (settle (auction (publish d t)))) ∧
            t.react.executor = none ∧
            t.react.levels = upd s.react.levels l
              { x with defn := { x.defn with enable := false }, pending := false, cause := none,
                       runPos := none, runCause := none } ∧
            (t.line = s.line ∨ (s.line.owner = .action ∧ t.line = (abandonRamp d).line)))) ∧
      (takeable ⟨0x18, tag, [2, n]⟩ s = true →
        exec (.levelCmdFire tag [2, n]) s = .next (putReply ⟨0x98, tag, [0]⟩
          (settle (auction (publish d (with' { x with pending := true, cause := some .fire }))))))) ∧
    (takeable ⟨0x18, tag, [3, n]⟩ s = true →
      (s.react.lock = true →
        exec (.levelCmdLock tag [3, n]) s = .next (putReply ⟨0x98, tag, [0]⟩ d)) ∧
      (s.react.lock = false → (∀ m, s.react.executor = some m → m.val = 0) →
        exec (.levelCmdLock tag [3, n]) s = .next (putReply ⟨0x98, tag, [0]⟩
          (settle (auction (publish d { d with react.lock := true }))))) ∧
      (s.react.lock = false → (∃ m, s.react.executor = some m ∧ m.val ≠ 0) →
        exec (.levelCmdLock tag [3, n]) s = .next (putReply ⟨0x98, tag, [0]⟩
          (settle (auction (publish d { suspend d with react.lock := true })))))) ∧
    (takeable ⟨0x18, tag, [4, n]⟩ s = true →
      (s.react.lock = true →
        exec (.levelCmdUnlock tag [4, n]) s = .next (putReply ⟨0x98, tag, [0]⟩
          (settle (auction (publish d { d with react.lock := false }))))) ∧
      (s.react.lock = false →
        exec (.levelCmdUnlock tag [4, n]) s = .next (putReply ⟨0x98, tag, [0]⟩ d)))

/-- R165, R182 step 4: an offer sets pending, with its cause, on every level whose trigger names it (level 0
for its three fixed kinds too), and one auction follows. R167 to R169: an award begins a new run or resumes
the suspended one; a run past its last action ends, frees the executor and raises LEVEL_DONE; an action that
waits keeps the run where it stands, and one that does not lets the next start; a suspension keeps the run
position and stops an owned ramp. R172, R173: a RAMP waits while it owns the target, a LIFT until the nip is
OPEN. R167, R170: a report of completion moves the level that waits on that action to its next one, and
reaches no level otherwise. -/
def Obligations.LevelsTriggeredAndRun : Prop :=
  (∀ (k : EventKind) (detail : Nat) (s : State),
    let named : Fin 16 → Prop := fun l => (s.react.levels[l]).defn.trigger = .event k ∨
      (l.val = 0 ∧ (k = .estop ∨ k = .guard ∨ k = .linkSilent))
    ∃ t, takeOffer (.occurrence k detail) s = auction t ∧
      (∀ l, named l → t.react.levels[l] =
        { s.react.levels[l] with pending := true, cause := some (.event k detail) }) ∧
      (∀ l, ¬named l → t.react.levels[l] = s.react.levels[l]) ∧
      t = { s with react.levels := t.react.levels }) ∧
  (∀ (n : Nat) (w : Fin 16) (s : State),
    let x := s.react.levels[w]
    (x.runPos = none →
      award w s = { s with
        react.levels := upd s.react.levels w
          { x with pending := false, runCause := x.cause, runPos := some 1 }
        react.executor := some w }) ∧
    (x.runPos ≠ none →
      (award w s).react.levels[w] = x ∧ (award w s).react.executor = some w) ∧
    (∀ p, x.runPos = some p → x.defn.actions.length < p →
      let t := workRun (n + 1) w s
      t.react.executor = none ∧
      t.react.levels = upd s.react.levels w { x with runPos := none, runCause := none } ∧
      hasKind t.events.set .levelDone = true) ∧
    (∀ (p : Nat) (a : Action), x.runPos = some p → x.defn.actions[p - 1]? = some a →
      let s1 := publish s (startAction w a s)
      let y := s1.react.levels[w]
      (actionWaits a s1 = true → workRun (n + 1) w s = s1) ∧
      (actionWaits a s1 = false →
        workRun (n + 1) w s = workRun n w { s1 with
          react.levels := upd s1.react.levels w { y with runPos := y.runPos.map (· + 1) } })) ∧
    (s.react.executor = some w →
      (suspend s).react.executor = none ∧ (suspend s).react.levels = s.react.levels ∧
      (∀ t r, runningAction s = some (.ramp t r) → s.line.owner = .action →
        (suspend s).line.target = s.line.reference ∧ (suspend s).line.reference = s.line.reference ∧
        (suspend s).line.owner = .line))) ∧
  runFuel = 5 ∧
  (∀ (a : Action) (s : State), actionWaits a s = true ↔
    ((∃ t r, a = .ramp t r) ∧ s.line.owner = .action) ∨ (a = .lift ∧ s.line.nip ≠ .opened)) ∧
  ∀ (done : WaitKind) (s : State),
    let waits : Fin 16 → Nat → Prop := fun w p =>
      s.react.executor = some w ∧ (s.react.levels[w]).runPos = some p ∧
        ∃ a, (s.react.levels[w]).defn.actions[p - 1]? = some a ∧
          ((done = .ramp ∧ ∃ t r, a = .ramp t r) ∨ (done = .lift ∧ a = .lift))
    (∀ w p, waits w p →
      takeOffer (.actionDone done) s = auction (workRun runFuel w { s with
        react.levels := upd s.react.levels w { s.react.levels[w] with runPos := some (p + 1) } })) ∧
    ((∀ w p, ¬waits w p) → takeOffer (.actionDone done) s = s)

/-- R166: an auction is won by the WAITING level with the lowest number that the lock does not bar. The winner
is awarded a free executor, or one that the suspension of a level it outranks frees, its run is worked, and
the auction is held again; otherwise nothing changes. When the auctions are over, no WAITING level that the
lock does not bar outranks the holder. -/
def Obligations.AuctionsLeaveNoClaim : Prop :=
  (∀ (s : State) (w : Fin 16), auctionWinner s = some w ↔
    levelState s w = .waiting ∧ (s.react.lock = true → w.val = 0) ∧
      ∀ l : Fin 16, l < w → levelState s l = .waiting → s.react.lock = true ∧ l.val ≠ 0) ∧
  (∀ s : State, auctionWinner s = none → auction s = s) ∧
  (∀ (s : State) (w m : Fin 16), auctionWinner s = some w → s.react.executor = some m → m ≤ w →
    auction s = s) ∧
  (∀ s : State, auction s = holdAuctions auctionFuel s) ∧
  (∀ (n : Nat) (s : State) (w : Fin 16), auctionWinner s = some w →
    (s.react.executor = none →
      holdAuctions (n + 1) s = holdAuctions n (workRun runFuel w (award w s))) ∧
    (∀ m, s.react.executor = some m → w < m →
      holdAuctions (n + 1) s = holdAuctions n (workRun runFuel w (award w (suspend s))) ∧
      (suspend s).react.executor = none) ∧
    (award w s).react.executor = some w) ∧
  ∀ (s : State) (l : Fin 16), levelState (auction s) l = .waiting →
    ((auction s).react.lock = true → l.val = 0) →
    ∃ m, (auction s).react.executor = some m ∧ m < l

/-- R8, R16, R17, R171 to R176: what the nine actions do as they start. R174, R16: a STOP action that finds
the reference at 0 ends within the action, both its MODE_CHANGEs recorded before they are offered (the
model's choice, log 30), and lifts the nip with lift_on_stop 1, against the second case of R130 (the model's
choice, log 53). A heat hold set with no heat lot leaves the setpoints at 0 (R66, R96; the model's choice
between R66's cases, log 40). After a LIFT that ends an engage the rate source is the model's choice (log
37). -/
def Obligations.ActionsTaken : Prop :=
  ∀ (w : Fin 16) (s : State),
    (∀ (x : Nat) (v : Int) (p : Point), Point.ofNumber x = some p → p.cls = .setting →
      startAction w (.set x v) s = (settingWrite p v s).state ∧
      ∀ (y : Nat) (q : Point), Point.ofNumber y = some q →
        startAction w (.copy x y) s = (settingWrite p (readPoint s q) s).state) ∧
    (∀ t r : Int, 0 ≤ s.line.vMax →
      (s.line.mode = .threading ∨
          (s.line.mode = .running ∧ (s.line.phase = .ramping ∨ s.line.phase = .steady)) →
        let u := startAction w (.ramp t r) s
        u.line.target = max 0 (min t s.line.vMax) ∧ u.line.rateSource = .action r ∧
        (u.line.owner = .action ↔ u.line.target ≠ s.line.reference) ∧
        (actionWaits (.ramp t r) u = true ↔ u.line.target ≠ s.line.reference) ∧
        u.line.reference = s.line.reference ∧
        u.line.phase = (if s.line.mode = .running then
          (if u.line.target = s.line.reference then .steady else .ramping) else s.line.phase) ∧
        LineFrame s u) ∧
      (s.line.mode ≠ .threading → s.line.mode ≠ .running ∨ s.line.phase = .engaging →
        startAction w (.ramp t r) s = s)) ∧
    (let u := startAction w .lift s
     u.line.nip.output = false ∧ (actionWaits .lift u = true ↔ u.line.nip ≠ .opened) ∧
     (s.line.nip = .opened ∨ (s.line.nip.output = true ∧ s.pins.nipFb = false) → u.line.nip = .opened) ∧
     (s.line.nip = .opening ∨ (s.line.nip.output = true ∧ s.pins.nipFb = true) →
       u.line.nip = .opening) ∧
     (s.line.mode = .running → s.line.phase = .engaging →
       u.line.mode = .ready ∧ u.line.feed = false) ∧
     (s.line.mode ≠ .running ∨ s.line.phase ≠ .engaging → u.line.mode = s.line.mode) ∧
     LineFrame s u) ∧
    (s.line.mode ≠ .running → s.line.mode ≠ .threading → startAction w .stop s = s) ∧
    (s.line.mode = .running ∨ s.line.mode = .threading → 0 ≤ s.line.vMax →
      let u := startAction w .stop s
      (s.line.reference ≠ 0 → u.line = { s.line with
        mode := .stopping, phase := .noPhase, dwell := none, target := 0, rateSource := .stopRate,
        owner := .line }) ∧
      (s.line.reference = 0 → u.line = { s.line with
        mode := .ready, phase := .noPhase, dwell := none, feed := false, target := 0,
        rateSource := .stopRate, owner := .line
        nip :=
          if s.line.liftOnStop = 1 ∧ s.line.nip.output = true then
            (if s.pins.nipFb = true then .opening else .opened)
          else s.line.nip }) ∧
      (s.line.owner = .action → .actionDone .ramp ∈ u.react.deferred) ∧
      hasKind u.events.set .modeChange = true ∧ actionWaits .stop u = false ∧ LineFrame s u) ∧
    ((startAction w .holdHeat s).line.heatHold = true ∧
      (∀ k : Fin 10, k.val < 6 →
        ((startAction w .holdHeat s).loops.loops[k]).setpoint =
          if s.profiles.heat = none then 0 else s.loops.standbyTemp)) ∧
    startAction w .beacon s = { s with line.beacon := true } ∧
    startAction w .report s =
      offerReport (.reaction w (s.react.levels[w]).runCause s.line.position s.line.mode) s ∧
    (s.line.mode = .safe → startAction w .safe s = s) ∧
    (s.line.mode ≠ .safe →
      let u := startAction w .safe s
      u.line.mode = .safe ∧ u.line.phase = .noPhase ∧ u.line.target = 0 ∧ u.line.reference = 0 ∧
      u.line.owner = .line ∧ u.line.feed = false ∧ u.line.nip.output = false ∧
      u.line.beacon = true ∧ u.line.dwell = none ∧
      hasKind u.events.set .modeChange = true ∧ .occurrence .modeChange 6 ∈ u.react.deferred ∧
      (s.line.mode = .off ∧ s.link.linkSilence ≠ 0 →
        u.link.silenceArmed = true ∧ u.link.silence = some s.link.linkSilence) ∧
      (s.line.mode ≠ .off ∨ s.link.linkSilence = 0 →
        u.link.silenceArmed = s.link.silenceArmed ∧ u.link.silence = s.link.silence) ∧
      (∀ k : Fin 10, (u.loops.loops[k]).mode = .off) ∧
      (∀ z : Fin 6, (u.loops.zones[z]).active = 0 ∧ heaterPin u z = false ∧ pendingDuty u z = 0) ∧
      (∀ l : Fin 16, l.val ≠ 0 → u.react.levels[l] =
        { s.react.levels[l] with pending := false, cause := none, runPos := none, runCause := none }) ∧
      u.react.levels[(0 : Fin 16)] = s.react.levels[(0 : Fin 16)] ∧ u.react.lock = s.react.lock ∧
      u.bands = s.bands ∧ u.meas = s.meas ∧ u.profiles = s.profiles)

/-! ## Events, the fault record and the report queue -/

/-- R182, R183, R187 to R189: an occurrence sets its flag, is captured when it is a fault, is reported under
the mask, REPORTS_DROPPED excepted, and is offered to the triggers when its step is over (the deferral is
the model's, log 9). R187, R188: a report joins the queue, or is discarded from a full one: the count moves,
the notice is owed under the mask, and REPORTS_DROPPED is raised with no report; an owed notice joins the
queue as a report leaves it. R182: the offers that wait are taken, oldest first (log 9), with those that
they bring about, until none waits; only a cascade without end, or of more than 2^64 offers, leaves some
(log 10). -/
def Obligations.OccurrencesTaken : Prop :=
  (∀ (k : EventKind) (detail : Nat) (s : State),
    let t := record k detail s
    let fault : Prop := k = .estop ∨ k = .guard ∨ k = .linkSilent ∨ k = .overheat ∨ k = .webLoss ∨
      k = .nipFault ∨ k = .scorch ∨ (k = .sensorFault ∧ detail ≤ 9)
    hasKind t.events.set k = true ∧
    (∀ j, hasKind s.events.set j = true → hasKind t.events.set j = true) ∧
    (¬fault → t.events.fault = s.events.fault) ∧
    (fault → s.events.fault.kinds = 0 →
      t.events.fault = { kinds := k.bit, first := some k, locus := some (locusOf k detail),
                         mode := some s.line.mode, position := some s.line.position }) ∧
    (fault → s.events.fault.kinds ≠ 0 →
      t.events.fault = { s.events.fault with kinds := s.events.fault.kinds ||| k.bit }) ∧
    (hasKind s.events.mask k = false ∨ k = .reportsDropped →
      t.events.reports = s.events.reports ∧ t.link = s.link ∧
      t.react.deferred = s.react.deferred ++ [.occurrence k detail]) ∧
    (k ≠ .reportsDropped → hasKind s.events.mask k = true → s.events.reports.length < 32 →
        s.link.sending ≠ none →
      t.events.reports = s.events.reports ++ [.event k detail s.line.position] ∧ t.link = s.link ∧
      t.react.deferred = s.react.deferred ++ [.occurrence k detail]) ∧
    (k ≠ .reportsDropped → hasKind s.events.mask k = true → s.events.reports = [] →
        s.link.sending = none → s.link.slot = none → s.events.owed = false →
      t.events.reports = [] ∧
      t.link.sending = some (Report.event k detail s.line.position).frame) ∧
    (k ≠ .reportsDropped → hasKind s.events.mask k = true → 32 ≤ s.events.reports.length →
      t.events.reports = s.events.reports ∧ t.link = s.link ∧
      t.events.discarded = min 65535 (s.events.discarded + 1) ∧
      (t.events.owed = true ↔ s.events.owed = true ∨ hasKind s.events.mask .reportsDropped = true) ∧
      hasKind t.events.set .reportsDropped = true ∧
      t.react.deferred = s.react.deferred ++
        [.occurrence .reportsDropped t.events.discarded, .occurrence k detail]) ∧
    t.line = s.line ∧ t.meas = s.meas ∧ t.loops = s.loops ∧ t.bands = s.bands ∧
    t.profiles = s.profiles ∧ t.engine = s.engine ∧ t.nvm = s.nvm ∧ t.pins = s.pins ∧
    t.user = s.user ∧ t.pending = s.pending) ∧
  (∀ (r : Report) (s : State),
    (s.events.reports.length < 32 → s.link.sending ≠ none →
      offerReport r s = { s with events.reports := s.events.reports ++ [r] }) ∧
    (32 ≤ s.events.reports.length →
      let n := min 65535 (s.events.discarded + 1)
      offerReport r s = { s with
        events.discarded := n
        events.owed := s.events.owed || hasKind s.events.mask .reportsDropped
        events.set := s.events.set ||| EventKind.bit .reportsDropped
        react.deferred := s.react.deferred ++ [.occurrence .reportsDropped n] }) ∧
    (s.events.owed = false → payNotice s = s) ∧
    (s.events.owed = true → payNotice s = { s with
      events.reports :=
        s.events.reports ++ [.event .reportsDropped s.events.discarded s.line.position]
      events.discarded := 0
      events.owed := false })) ∧
  ∀ (n : Nat) (s : State),
    (s.react.deferred = [] → takeOffers n s = s) ∧
    (∀ d rest, s.react.deferred = d :: rest →
      takeOffers (n + 1) s = takeOffers n (takeOffer d { s with react.deferred := rest })) ∧
    (n ≤ 2 ^ 64 → (takeOffers n s).react.deferred = [] → settle s = takeOffers n s)

/-- R138, R185, R186, R191: HISTORY_CLEAR, EVENTS_CLEAR, MASK_WRITE and FAULT_CLEAR. -/
def Obligations.ClearingRequests : Prop :=
  ∀ (tag : Byte) (s : State),
    let d := dequeue s
    (∀ n : Byte, takeable ⟨0x10, tag, [n]⟩ s = true →
      (6 < n.toNat → exec (.historyClear tag [n]) s = .next (putReply ⟨0x90, tag, [11]⟩ d)) ∧
      (n.toNat ≤ 6 →
        exec (.historyClear tag [n]) s = .next (putReply ⟨0x90, tag, [0]⟩ (commit d { d with
          bands.history := tab fun z =>
            if n.toNat = 0 ∨ n.toNat = z.val + 1 then [] else s.bands.history[z] })))) ∧
    (∀ set : BitVec 23,
      (takeable ⟨0x1A, tag, leBytes 4 set.toNat⟩ s = true →
        exec (.eventsClear tag (leBytes 4 set.toNat)) s = .next (putReply ⟨0x9A, tag, [0]⟩ { d with
          events.set := s.events.set &&& ~~~set
          events.discarded := if hasKind set .reportsDropped = true then 0 else s.events.discarded
          events.owed := !hasKind set .reportsDropped && s.events.owed })) ∧
      (takeable ⟨0x1B, tag, leBytes 4 set.toNat⟩ s = true →
        exec (.maskWrite tag (leBytes 4 set.toNat)) s =
          .next (putReply ⟨0x9B, tag, [0]⟩ { d with events.mask := set }))) ∧
    (∀ bits : BitVec 32, 2 ^ 23 ≤ bits.toNat →
      (takeable ⟨0x1A, tag, leBytes 4 bits.toNat⟩ s = true →
        exec (.eventsClear tag (leBytes 4 bits.toNat)) s = .next (putReply ⟨0x9A, tag, [11]⟩ d)) ∧
      (takeable ⟨0x1B, tag, leBytes 4 bits.toNat⟩ s = true →
        exec (.maskWrite tag (leBytes 4 bits.toNat)) s = .next (putReply ⟨0x9B, tag, [11]⟩ d))) ∧
    (takeable ⟨0x1D, tag, []⟩ s = true →
      exec (.faultClear tag []) s = .next (putReply ⟨0x9D, tag, [0]⟩ { d with
        events.fault := { kinds := 0, first := none, locus := none, mode := none, position := none } }))

/-- R189: while the fault record holds a kind, no command but FAULT_CLEAR and the loss and return of power
changes its first kind, locus, mode and position, or takes a kind out of it. A command that lets the link take
frames (R197) is such a command where one of them is FAULT_CLEAR. -/
def Obligations.FaultRecordKeepsFirst : Prop :=
  ∀ (c : Instr) (s t : State), exec c s = .next t → s.events.fault.kinds ≠ 0 →
    isFaultClear c = false → losesFaultRecord c = false →
    (∀ f, mayTake c s f → isFaultClear (requestOf f) = false) →
    t.events.fault.first = s.events.fault.first ∧ t.events.fault.locus = s.events.fault.locus ∧
    t.events.fault.mode = s.events.fault.mode ∧ t.events.fault.position = s.events.fault.position ∧
    s.events.fault.kinds &&& t.events.fault.kinds = s.events.fault.kinds

/-! ## Requests that read -/

/-- R89, R119, R120, R137, R162, R180, R184, R190, R204: the requests that read answer the items their rules
name, and change nothing but the link. Where the spec leaves a layout open it is the model's choice
(HELLO's revision in one byte, log 20; FAULT_READ's presence bytes, log 21; the number of a watch or
level is not repeated, log 34; a mean in two bytes, log 43). The bytes of a band record (Table 11-6), of a
level (R180) and of the four reports (R201, Table 11-5) are written out; a REACTION report of a run without a
cause, which cannot stand, gives zeros (log 27). -/
def Obligations.ReadingRequestsAnswered : Prop :=
  (∀ (tag : Byte) (s : State),
    let d := dequeue s
    (takeable ⟨0x01, tag, []⟩ s = true →
      exec (.hello tag []) s = .next (putReply ⟨0x81, tag,
        [0, 0x56, 0x4B, 0x53, 0x2D, 0x36, 0x31, 0x34, 2, BitVec.ofNat 8 s.link.cause.code] ++
          encOption (fun m => enc8 (LineMode.code m)) s.link.priorMode ++
          [if s.events.fault.kinds = 0 then 0 else 1, BitVec.ofNat 8 s.link.storeState.code,
            if s.nvm.writing = none then 0 else 1]⟩ d)) ∧
    (∀ (slot : Byte) (c : Fin 16), slot.toNat = c.val → takeable ⟨0x07, tag, [0, slot]⟩ s = true →
      (s.profiles.colour[c] = none →
        exec (.profileRead tag [0, slot]) s = .next (putReply ⟨0x87, tag, [4]⟩ d)) ∧
      ∀ p, s.profiles.colour[c] = some p →
        exec (.profileRead tag [0, slot]) s = .next (putReply ⟨0x87, tag, [0, 0, slot] ++
          encName p.name ++ encColour p ++ leBytes 2 (colourUses s c)⟩ d)) ∧
    (∀ (slot : Byte) (f : Fin 8), slot.toNat = f.val → takeable ⟨0x07, tag, [1, slot]⟩ s = true →
      (s.profiles.fabric[f] = none →
        exec (.profileRead tag [1, slot]) s = .next (putReply ⟨0x87, tag, [4]⟩ d)) ∧
      ∀ p, s.profiles.fabric[f] = some p →
        exec (.profileRead tag [1, slot]) s = .next (putReply ⟨0x87, tag, [0, 1, slot] ++
          encName p.name ++ encFabric p ++ leBytes 2 (fabricUses s f) ++
          encFlag (lotNames s.profiles.current f) ++ encFlag (lotNames s.profiles.heat f) ++
          encFlag (lotNames s.profiles.nip f)⟩ d)) ∧
    (∀ i0 i1 : Byte, takeable ⟨0x0D, tag, [i0, i1]⟩ s = true →
      (findBand s (i0.toNat + 256 * i1.toNat) = none →
        exec (.bandRead tag [i0, i1]) s = .next (putReply ⟨0x8D, tag, [4]⟩ d)) ∧
      ∀ b, findBand s (i0.toNat + 256 * i1.toNat) = some b →
        exec (.bandRead tag [i0, i1]) s = .next (putReply ⟨0x8D, tag, 0 :: encBand s b⟩ d)) ∧
    (takeable ⟨0x0E, tag, []⟩ s = true →
      exec (.queueRead tag []) s = .next (putReply ⟨0x8E, tag, 0 :: (enc32 s.line.position ++
        leBytes 2 s.bands.queue.length ++ s.bands.queue.flatMap fun b =>
          leBytes 2 b.id ++ leBytes 1 b.state.code ++ encOption enc32 (midDistance s b))⟩ d)) ∧
    (takeable ⟨0x0F, tag, []⟩ s = true →
      exec (.historyRead tag []) s = .next (putReply ⟨0x8F, tag, 0 ::
        (List.finRange 6).flatMap fun z =>
          leBytes 2 (s.bands.history[z]).length ++ enc16i (readPoint s (.histMean z)) ++
            (s.bands.history[z]).flatMap fun e => enc16i e.ratio ++ leBytes 2 e.band⟩ d)) ∧
    (∀ (n : Byte) (w : Fin 16), n.toNat = w.val →
      (takeable ⟨0x15, tag, [n]⟩ s = true →
        exec (.watchRead tag [n]) s = .next (putReply ⟨0x95, tag, 0 ::
          (leBytes 2 (s.react.watches[w]).defn.source ++
            leBytes 1 (s.react.watches[w]).defn.cond.code ++ enc32 (s.react.watches[w]).defn.lo ++
            enc32 (s.react.watches[w]).defn.hi ++ enc32 (s.react.watches[w]).defn.persist ++
            leBytes 1 (s.react.watches[w]).state.code)⟩ d)) ∧
      (takeable ⟨0x17, tag, [n]⟩ s = true →
        exec (.levelRead tag [n]) s = .next (putReply ⟨0x97, tag, 0 :: encLevel s w⟩ d))) ∧
    (takeable ⟨0x19, tag, []⟩ s = true →
      exec (.eventsRead tag []) s = .next (putReply ⟨0x99, tag, 0 ::
        (leBytes 4 s.events.set.toNat ++ leBytes 4 s.events.mask.toNat ++
          leBytes 2 s.events.discarded)⟩ d)) ∧
    (takeable ⟨0x1C, tag, []⟩ s = true →
      exec (.faultRead tag []) s = .next (putReply ⟨0x9C, tag, 0 ::
        (leBytes 4 s.events.fault.kinds.toNat ++
          encOption (fun k => leBytes 1 (EventKind.code k)) s.events.fault.first ++
          encOption encLocus s.events.fault.locus ++
          encOption (fun m => leBytes 1 (LineMode.code m)) s.events.fault.mode ++
          encOption enc32 s.events.fault.position)⟩ d))) ∧
  (∀ (s : State) (b : Band), encBand s b =
    leBytes 2 b.id ++ leBytes 1 b.state.code ++ leBytes 2 b.lotSeq ++ leBytes 1 b.fabric.val ++
      leBytes 1 b.colour.val ++ leBytes 2 b.length.toNat ++ enc32 b.dTarget ++
      encOption (fun p => enc32 p ++ enc32 (s.line.position - p) ++
        enc32 (s.line.position - p - Int.fdiv b.length 2)) b.start ++
      encOption (fun t : Ticket => (List.finRange 6).flatMap fun z => enc32 (t[z]).dPred ++
        ((List.finRange 6).flatMap fun i => leBytes 2 ((t[z]).gains[i]).toNat) ++
        leBytes 2 ((t[z]).k).toNat ++ encTicketMarks (t[z]).marks) b.ticket ++
      encOption (fun a : Vector Int 6 => (List.finRange 6).flatMap fun z => enc32 a[z]) b.acc ++
      encOption (fun r : Vector Int 6 => (List.finRange 6).flatMap fun z => leBytes 2 (r[z]).toNat)
        b.ratios ++ encBandMarks b.marks) ∧
  (∀ (s : State) (l : Fin 16),
    let x := s.react.levels[l]
    encLevel s l =
      encTrigger x.defn.trigger ++ [if x.defn.enable = true then 1 else 0] ++
        [if x.pending = true then 1 else 0] ++ leBytes 1 (levelState s l).code ++
        encOption encCause x.cause ++ encActions x.defn.actions ++ encOption (leBytes 1) x.runPos ++
        encOption encCause x.runCause) ∧
  (∀ (k : EventKind) (n : Nat) (p : Int),
    (Report.event k n p).frame = ⟨0x40, 0, leBytes 1 k.code ++ leBytes 2 n ++ enc32 p⟩) ∧
  (∀ (band seq : Nat) (f : Fin 8) (c : Fin 16) (target : Int) (t : Ticket),
    (Report.ticket band seq f c target t).frame = ⟨0x41, 0,
      leBytes 2 band ++ leBytes 2 seq ++ leBytes 1 f.val ++ leBytes 1 c.val ++ enc32 target ++
        ((List.finRange 6).flatMap fun z => enc32 (t[z]).dPred) ++
        ((List.finRange 6).flatMap fun z =>
          (List.finRange 6).flatMap fun i => leBytes 2 ((t[z]).gains[i]).toNat) ++
        ((List.finRange 6).flatMap fun z => leBytes 2 ((t[z]).k).toNat) ++
        (List.finRange 6).flatMap fun z => encTicketMarks (t[z]).marks⟩) ∧
  (∀ (band seq : Nat) (f : Fin 8) (c : Fin 16) (target : Int) (acc ratios : Vector Int 6)
    (m : BandMarks),
    (Report.settled band seq f c target acc ratios m).frame = ⟨0x42, 0,
      leBytes 2 band ++ leBytes 2 seq ++ leBytes 1 f.val ++ leBytes 1 c.val ++ enc32 target ++
        ((List.finRange 6).flatMap fun z => enc32 acc[z]) ++
        ((List.finRange 6).flatMap fun z => leBytes 2 (ratios[z]).toNat) ++ encBandMarks m⟩) ∧
  ∀ (l : Fin 16) (cause : Option Cause) (p : Int) (m : LineMode),
    (Report.reaction l cause p m).frame = ⟨0x43, 0,
      leBytes 1 l.val ++
        (match cause with
        | some x => encCause x
        | none => [0, 0, 0, 0]) ++ enc32 p ++ leBytes 1 m.code⟩

/-! ## The command link -/

/-- R193 to R197, R203: a frame sent to a hunting receiver joins the input buffer, whatever its bytes are,
and restarts an armed silence timing; with four frames in the buffer it is discarded with LINK_ERROR 4, the
timing restarted first (the model's choice, log 44). The bytes of one command are received one after
another, with no gap between them (log 4). R197, R207: the link takes the oldest frame of the buffer while it
can, within the same step, as the command does that the frame's kind and command byte name (R198, Table
11-3; a command byte that names no row goes to the family's first, log 23); a request command that cannot be
taken now is received as a valid frame (log 3). R193: the layout of a frame. R195: its check, byte by byte
from 0xFFFF with the polynomial 0x1021, and the rule's own example. -/
def Obligations.FramesReceived : Prop :=
  (∀ f : Frame,
    let body := leBytes 2 f.payload.length ++ [f.kind, f.tag] ++ f.payload
    f.bytes = [0xA5] ++ body ++ leBytes 2 (crc body).toNat) ∧
  (let shift : BitVec 16 → BitVec 16 := fun r =>
     if r.getLsbD 15 = true then (r <<< 1) ^^^ 0x1021 else r <<< 1
   crc [] = 0xFFFF ∧
    (∀ (bs : List Byte) (b : Byte),
      crc (bs ++ [b]) = shift^[8] (crc bs ^^^ (b.zeroExtend 16 <<< 8))) ∧
    crc [0x31, 0x32, 0x33, 0x34, 0x35, 0x36, 0x37, 0x38, 0x39] = 0x29B1) ∧
  (∀ (f : Frame) (s : State), s.runs = true → s.link.receiver = .hunting → f.payload.length ≤ 1024 →
    (s.link.buffer.length < 4 →
      exec (.frameReceived f.bytes) s =
        .next (serveBuffer (restartSilence { s with link.buffer := s.link.buffer ++ [f] }))) ∧
    (4 ≤ s.link.buffer.length →
      exec (.frameReceived f.bytes) s =
        .next (serveBuffer (raiseEvent .linkError 4 (restartSilence s))))) ∧
  (∀ (f : Frame) (s : State),
    (takeable f s = true ↔ s.runs = true ∧ s.link.restarting = false ∧ s.link.slot = none ∧
      (s.link.buffer = [] ∨ s.link.buffer.head? = some f)) ∧
    (s.link.buffer = [] → serveBuffer s = s) ∧
    (∀ rest, s.link.buffer = f :: rest →
      (takeable f s = false → serveBuffer s = s) ∧
      (takeable f s = true → ∃ t, exec (requestOf f) s = .next t ∧ t.link.buffer = rest ∧
        serveBuffer s = serveBuffer t)) ∧
    (s.runs = true → takeable f s = false →
      (s.link.buffer.length < 4 →
        exec (requestOf f) s =
          .next (restartSilence { s with link.buffer := s.link.buffer ++ [f] })) ∧
      (4 ≤ s.link.buffer.length →
        exec (requestOf f) s = .next (raiseEvent .linkError 4 (restartSilence s))))) ∧
  ∀ (tag : Byte) (p : List Byte),
    requestOf ⟨0x01, tag, p⟩ = .hello tag p ∧ requestOf ⟨0x02, tag, p⟩ = .pointRead tag p ∧
    requestOf ⟨0x03, tag, p⟩ = .pointWrite tag p ∧ requestOf ⟨0x05, tag, p⟩ = .lot tag p ∧
    requestOf ⟨0x06, tag, p⟩ = .profileWrite tag p ∧ requestOf ⟨0x07, tag, p⟩ = .profileRead tag p ∧
    requestOf ⟨0x08, tag, p⟩ = .profileErase tag p ∧ requestOf ⟨0x09, tag, p⟩ = .ticketReq tag p ∧
    requestOf ⟨0x0A, tag, p⟩ = .bandStart tag p ∧ requestOf ⟨0x0B, tag, p⟩ = .bandCancel tag p ∧
    requestOf ⟨0x0C, tag, p⟩ = .bandVoid tag p ∧ requestOf ⟨0x0D, tag, p⟩ = .bandRead tag p ∧
    requestOf ⟨0x0E, tag, p⟩ = .queueRead tag p ∧ requestOf ⟨0x0F, tag, p⟩ = .historyRead tag p ∧
    requestOf ⟨0x10, tag, p⟩ = .historyClear tag p ∧ requestOf ⟨0x12, tag, p⟩ = .channelMode tag p ∧
    requestOf ⟨0x13, tag, p⟩ = .zero tag p ∧ requestOf ⟨0x14, tag, p⟩ = .watchWrite tag p ∧
    requestOf ⟨0x15, tag, p⟩ = .watchRead tag p ∧ requestOf ⟨0x16, tag, p⟩ = .levelWrite tag p ∧
    requestOf ⟨0x17, tag, p⟩ = .levelRead tag p ∧ requestOf ⟨0x19, tag, p⟩ = .eventsRead tag p ∧
    requestOf ⟨0x1A, tag, p⟩ = .eventsClear tag p ∧ requestOf ⟨0x1B, tag, p⟩ = .maskWrite tag p ∧
    requestOf ⟨0x1C, tag, p⟩ = .faultRead tag p ∧ requestOf ⟨0x1D, tag, p⟩ = .faultClear tag p ∧
    requestOf ⟨0x1E, tag, p⟩ = .store tag p ∧ requestOf ⟨0x1F, tag, p⟩ = .restart tag p ∧
    requestOf ⟨0x04, tag, 0 :: p⟩ = .lineCmdHeat tag (0 :: p) ∧
    requestOf ⟨0x04, tag, 1 :: p⟩ = .lineCmdCool tag (1 :: p) ∧
    requestOf ⟨0x04, tag, 2 :: p⟩ = .lineCmdRun tag (2 :: p) ∧
    requestOf ⟨0x04, tag, 3 :: p⟩ = .lineCmdStop tag (3 :: p) ∧
    requestOf ⟨0x04, tag, 4 :: p⟩ = .lineCmdThread tag (4 :: p) ∧
    requestOf ⟨0x04, tag, 5 :: p⟩ = .lineCmdClear tag (5 :: p) ∧
    requestOf ⟨0x04, tag, []⟩ = .lineCmdHeat tag [] ∧
    (∀ b : Byte, 6 ≤ b.toNat → requestOf ⟨0x04, tag, b :: p⟩ = .lineCmdHeat tag (b :: p)) ∧
    requestOf ⟨0x11, tag, 0 :: p⟩ = .scanCmdContinuous tag (0 :: p) ∧
    requestOf ⟨0x11, tag, 1 :: p⟩ = .scanCmdSingle tag (1 :: p) ∧
    requestOf ⟨0x11, tag, 2 :: p⟩ = .scanCmdStop tag (2 :: p) ∧
    requestOf ⟨0x11, tag, 3 :: p⟩ = .scanCmdConfigure tag (3 :: p) ∧
    requestOf ⟨0x11, tag, []⟩ = .scanCmdContinuous tag [] ∧
    (∀ b : Byte, 4 ≤ b.toNat → requestOf ⟨0x11, tag, b :: p⟩ = .scanCmdContinuous tag (b :: p)) ∧
    requestOf ⟨0x18, tag, 0 :: p⟩ = .levelCmdEnable tag (0 :: p) ∧
    requestOf ⟨0x18, tag, 1 :: p⟩ = .levelCmdDisable tag (1 :: p) ∧
    requestOf ⟨0x18, tag, 2 :: p⟩ = .levelCmdFire tag (2 :: p) ∧
    requestOf ⟨0x18, tag, 3 :: p⟩ = .levelCmdLock tag (3 :: p) ∧
    requestOf ⟨0x18, tag, 4 :: p⟩ = .levelCmdUnlock tag (4 :: p) ∧
    requestOf ⟨0x18, tag, []⟩ = .levelCmdEnable tag [] ∧
    (∀ b : Byte, 5 ≤ b.toNat → requestOf ⟨0x18, tag, b :: p⟩ = .levelCmdEnable tag (b :: p)) ∧
    ∀ kind : Byte, kind.toNat = 0 ∨ 0x1F < kind.toNat →
      requestOf ⟨kind, tag, p⟩ = .unknownRequest kind tag p

/-- R193 to R196: the other ends of a frame: a byte while hunting, a length beyond 1024, a check that does
not agree, and a gap. R203: the expiry of the link-silence timing raises LINK_SILENT and stops the timing;
a valid frame starts it afresh while it is armed. -/
def Obligations.FrameFailuresAndSilence : Prop :=
  (∀ s : State, s.runs = true →
    (s.link.receiver = .hunting →
      exec (.frameSyncReceived 0xA5) s = .next { s with link.receiver := .inside [] } ∧
      (∀ b : Byte, b ≠ 0xA5 → exec (.frameSyncReceived b) s = .next s) ∧
      (∀ l0 l1 : Byte, 1024 < l0.toNat + 256 * l1.toNat →
        exec (.frameReceived [0xA5, l0, l1]) s = .next (raiseEvent .linkError 2 s)) ∧
      (∀ (f : Frame) (c0 c1 : Byte), f.payload.length ≤ 1024 →
        c0.toNat + 256 * c1.toNat ≠ (crc f.body).toNat →
        exec (.frameReceived (0xA5 :: (f.body ++ [c0, c1]))) s =
          .next (raiseEvent .linkError 1 s))) ∧
    (∀ g, s.link.receiver = .inside g →
      exec .interbyteGapTimeout s =
        .next (raiseEvent .linkError 3 { s with link.receiver := .hunting })) ∧
    (s.link.receiver = .hunting → exec .interbyteGapTimeout s = .next s)) ∧
  (∀ s : State,
    (s.runs = true → s.link.silence ≠ none →
      exec .linkSilenceExpiry s =
        .next (settle (record .linkSilent 0 { s with link.silence := none }))) ∧
    (s.runs = true → s.link.silence = none → exec .linkSilenceExpiry s = .next s) ∧
    (s.link.silenceArmed = true →
      restartSilence s = { s with link.silence := some s.link.linkSilence }) ∧
    (s.link.silenceArmed = false → restartSilence s = s))

/-- R198, R207: RESTART stops the taking of requests once its reply is in the slot, or is refused with BUSY
while a STORE is in progress; a request of no kind is answered UNKNOWN. -/
def Obligations.RestartAndUnknownRequests : Prop :=
  ∀ (tag : Byte) (payload : List Byte) (s : State),
    let d := dequeue s
    (takeable ⟨0x1F, tag, payload⟩ s = true →
      (payload ≠ [] → exec (.restart tag payload) s = .next (putReply ⟨0x9F, tag, [3]⟩ d)) ∧
      (payload = [] → s.nvm.writing ≠ none →
        exec (.restart tag payload) s = .next (putReply ⟨0x9F, tag, [7]⟩ d)) ∧
      (payload = [] → s.nvm.writing = none →
        exec (.restart tag payload) s =
          .next (putReply ⟨0x9F, tag, [0]⟩ { d with link.restarting := true }))) ∧
    (∀ f, s.link.restarting = true → takeable f s = false) ∧
    ∀ kind : Byte, kind.toNat = 0 ∨ 0x1F < kind.toNat → takeable ⟨kind, tag, payload⟩ s = true →
      exec (.unknownRequest kind tag payload) s = .next (putReply ⟨kind + 0x80, tag, [2]⟩ d)

/-- R197, R199, R207: a frame sent to its end gives the line to the reply, then to the oldest report, with
the owed notice joining the queue as a report leaves it; a slot that it empties lets the link take the oldest
frame of the buffer in the same step (R197; log 3, and FramesReceived says how). R206, R207: the end of a taken RESTART's reply
starts the part from the settings store, with the fault record and the line mode handed over as the prior
mode; an ESTOP found active is taken as becoming active then (R23; log 32). -/
def Obligations.TransmitterTakesReplyFirst : Prop :=
  ∀ (s : State) (f : Frame), s.runs = true → s.link.sending = some f →
    (s.link.restarting = true → f.kind = 0x9F → f.payload = [0] →
      let b := loadStore { State.reset with
        pins := s.pins
        events := { EventUnit.reset with fault := s.events.fault }
        link := { Link.reset with
          cause := .restart, priorMode := some s.line.mode, straps := s.pins.straps }
        nvm := { places := s.nvm.places, current := none, writing := none }
        pending := s.pending }
      (s.pins.estop = false → exec .transmitComplete s = .next b) ∧
      (s.pins.estop = true →
        exec .transmitComplete s = exec .estopActive { b with pins.estop := false })) ∧
    (s.link.restarting = false ∨ f.kind ≠ 0x9F →
      (∀ r, s.link.slot = some r →
        exec .transmitComplete s =
          .next (serveBuffer { s with link.sending := some r, link.slot := none })) ∧
      (s.link.slot = none → s.events.reports = [] →
        exec .transmitComplete s = .next (serveBuffer { s with link.sending := none })) ∧
      (∀ r rest, s.link.slot = none → s.events.reports = r :: rest → s.events.owed = false →
        exec .transmitComplete s =
          .next (serveBuffer { s with link.sending := some r.frame, events.reports := rest })) ∧
      (∀ r rest, s.link.slot = none → s.events.reports = r :: rest → s.events.owed = true →
        exec .transmitComplete s = .next (serveBuffer { s with
          link.sending := some r.frame
          events.reports := rest ++ [.event .reportsDropped s.events.discarded s.line.position]
          events.discarded := 0
          events.owed := false }))) ∧
    ∀ r, putReply r s = { s with link.slot := some r } ∧
      putReply r { s with link.sending := none } =
        { s with link.sending := some r, link.slot := none }

/-! ## The settings store and the starts -/

/-- R209: STORE begins to write an image of the contents, with the next generation, into the place that
does not hold the current image (the first place when there is none); until the write ends the place holds
a check that fails. The read-back decides between STORE_DONE, with the check that agrees, and STORE_FAIL.
The first place, the value that fails, and the read-back's answer are the model's choices (log 25). -/
def Obligations.StoreWritesOtherPlace : Prop :=
  ∀ (tag : Byte) (s : State),
    let d := dequeue s
    (takeable ⟨0x1E, tag, []⟩ s = true →
      (s.line.mode ≠ .off → exec (.store tag []) s = .next (putReply ⟨0x9E, tag, [6]⟩ d)) ∧
      (s.line.mode = .off → s.nvm.writing ≠ none →
        exec (.store tag []) s = .next (putReply ⟨0x9E, tag, [7]⟩ d)) ∧
      (s.line.mode = .off → s.nvm.writing = none → s.nvm.current = none →
        exec (.store tag []) s = .next (putReply ⟨0x9E, tag, [0]⟩ { d with
          nvm.places := upd s.nvm.places 0 (.image 1 (captureContents s)
            (~~~ imageCheck 1 (captureContents s)))
          nvm.writing := some 0 })) ∧
      ∀ (i j : Fin 2) (g : Nat) (c : Contents) (k : BitVec 16), s.line.mode = .off →
        s.nvm.writing = none → s.nvm.current = some i → s.nvm.places[i] = .image g c k → i ≠ j →
        let h := if g = 4294967295 then 1 else g + 1
        exec (.store tag []) s = .next (putReply ⟨0x9E, tag, [0]⟩ { d with
          nvm.places := upd s.nvm.places j
            (.image h (captureContents s) (~~~ imageCheck h (captureContents s)))
          nvm.writing := some j })) ∧
    ∀ (i : Fin 2) (g : Nat) (c : Contents) (k : BitVec 16), s.runs = true →
      s.nvm.writing = some i → s.nvm.places[i] = .image g c k →
      exec (.storeWriteComplete true) s = .next (commit s (record .storeDone 0 { s with
        nvm.places := upd s.nvm.places i (.image g c (imageCheck g c))
        nvm.current := some i
        nvm.writing := none })) ∧
      exec (.storeWriteComplete false) s =
        .next (commit s (record .storeFail 0 { s with nvm.writing := none }))

/-- R61, R98: the contents that a STORE captures: every SETTING and GUARDED point but the loop modes and
outputs, with the value it shows, in number order, the profiles, the definitions and the mask. R208: which
image is current, by the check of R195 over its generation and its contents (their layout is the model's
choice, log 25). R60, R62, R97, R181, R186: what a start takes from the store: with no valid image the
values stay as they were, which at a start are the factory values; else each stored point is clamped as a
write clamps it, and a stored name keeps its first 16 characters (the model's choice, log 51). A stored
out_min is judged first, against the default out_max, and out_max against it, and a stored source that
closes a chain of outputs leaves the default (the model's choice, log 39). R81, R82: the outputs then show
the mapping of 0, and the loops rest at 0 within their bounds. -/
def Obligations.StartLoadsCurrentImage : Prop :=
  (∀ s : State,
    let c := captureContents s
    c.points = storedPoints.map (fun p => (p.number, readPoint s p)) ∧
    c.colour = s.profiles.colour ∧ c.fabric = s.profiles.fabric ∧
    (∀ w : Fin 16, c.watches[w] = (s.react.watches[w]).defn) ∧
    (∀ l : Fin 16, c.levels[l] = (s.react.levels[l]).defn) ∧ c.mask = s.events.mask) ∧
  (∀ p : Point, p ∈ storedPoints ↔
    (p.cls = .setting ∨ p.cls = .guarded) ∧ (∀ k, p ≠ .loopMode k) ∧ ∀ k, p ≠ .loopOutput k) ∧
  (storedPoints.map Point.number).Pairwise (· < ·) ∧
  (∀ (g : Nat) (c : Contents), imageCheck g c = crc (leBytes 4 g ++ encContents c)) ∧
  (∀ (places : Vector Place 2) (g0 g1 : Nat) (c0 c1 : Contents),
    places[(0 : Fin 2)] = .image g0 c0 (imageCheck g0 c0) →
    places[(1 : Fin 2)] = .image g1 c1 (imageCheck g1 c1) →
    (g0 = g1 + 1 ∨ (g1 = 4294967295 ∧ g0 = 1) → currentContents places = some c0) ∧
    (g1 = g0 + 1 ∨ (g0 = 4294967295 ∧ g1 = 1) → g0 ≠ g1 + 1 → ¬(g1 = 4294967295 ∧ g0 = 1) →
      currentContents places = some c1) ∧
    (g0 ≠ g1 + 1 → ¬(g1 = 4294967295 ∧ g0 = 1) → g1 ≠ g0 + 1 → ¬(g0 = 4294967295 ∧ g1 = 1) →
      (g1 < g0 → currentContents places = some c0) ∧
      (g0 < g1 → currentContents places = some c1))) ∧
  (∀ (places : Vector Place 2) (i j : Fin 2) (g : Nat) (c : Contents), i ≠ j →
    places[i] = .image g c (imageCheck g c) → (∀ h x, places[j] ≠ .image h x (imageCheck h x)) →
    currentContents places = some c) ∧
  (∀ places : Vector Place 2,
    (∀ (i : Fin 2) (g : Nat) (c : Contents), places[i] ≠ .image g c (imageCheck g c)) →
    currentContents places = none) ∧
  ∀ (s : State),
    (currentContents s.nvm.places = none → loadStore s = s) ∧
    ∀ c, currentContents s.nvm.places = some c →
      let t := loadStore s
      t.link.storeState = .loaded ∧ t.events.mask = c.mask ∧
      (∀ k : Fin 16, t.profiles.colour[k] = (c.colour[k]).map loadColour) ∧
      (∀ k : Fin 8, t.profiles.fabric[k] = (c.fabric[k]).map loadFabric) ∧
      (∀ w : Fin 16, t.react.watches[w] =
        { defn := if watchAllowed c.watches[w] = true then c.watches[w] else WatchDef.factory
          state := .clear }) ∧
      (∀ l : Fin 16, t.react.levels[l] =
        { defn := if levelAllowed l c.levels[l] = true then c.levels[l] else LevelDef.factory l
          pending := false, cause := none, runPos := none, runCause := none }) ∧
      t.line.mode = s.line.mode ∧ t.pins = s.pins ∧ t.events.fault = s.events.fault ∧
      t.nvm.places = s.nvm.places ∧ t.bands.queue = s.bands.queue ∧
      ∀ v : Point → Int, c.points = storedPoints.map (fun p => (p.number, v p)) →
        (∀ p ∈ storedPoints, p ≠ .linkSilence → p ≠ .heaterWindow → (∀ k, p ≠ .loopOutMin k) →
          (∀ k, p ≠ .loopOutMax k) → (∀ n, p ≠ .outSource n) →
          readPoint t p = clampTo (plainRange p).1 (plainRange p).2 (v p)) ∧
        (let w := v .linkSilence
         readPoint t .linkSilence = if w ≤ 0 then 0 else if w < 500 then 500 else min w 60000) ∧
        readPoint t .heaterWindow = Int.fdiv (clampTo 500 10000 (v .heaterWindow)) 100 * 100 ∧
        t.loops.windowLength = readPoint t .heaterWindow ∧
        (∀ k : Fin 10,
          let l := t.loops.loops[k]
          let lo : Int := if k.val < 6 then 0 else -200
          let hi : Int := if k.val < 6 then 1000 else 200
          l.outMin = min (clampTo lo hi (v (.loopOutMin k))) (s.loops.loops[k]).outMax ∧
          l.outMax = max (clampTo lo hi (v (.loopOutMax k))) l.outMin ∧
          l.u = clampTo l.outMin l.outMax 0 ∧ l.i = 256 * l.u ∧
          l.mode = (s.loops.loops[k]).mode ∧ l.override = (s.loops.loops[k]).override) ∧
        ∀ n : Fin 5,
          let o := t.loops.outputs[n]
          let w := v (.outSource n)
          let u := { s with loops.outputs := tab fun m : Fin 5 =>
            if m < n then t.loops.outputs[m] else s.loops.outputs[m] }
          o.source = (if Point.ofInt w = none ∨ chainLeadsTo u n 6 w = true then
            (s.loops.outputs[n]).source else w) ∧
          o.counts = countsFor o 0

/-- R204 to R206: a power-on is a cold start from the settings store; with no valid image it gives the reset
state, with what the pins show. R204 to R206: the release of the reset line is a warm start: it keeps the
fault record and the prior mode and starts from the settings store. An ESTOP found active is taken as
becoming active then (R23; log 32). R205: the reset line and the loss of power end all work: the output pins
are off, the settings store's places are kept, and a reset hands over the line mode and keeps the fault
record. -/
def Obligations.PartStartsAndResets : Prop :=
  (∀ (straps : BitVec 2) (s : State), s.pins.resetActive = false →
    let blank := { State.reset with
      pins := { s.pins with powered := true, straps := straps }
      link := { Link.reset with straps := straps }
      nvm := { places := s.nvm.places, current := none, writing := none }
      pending := s.pending }
    let b := loadStore blank
    (s.pins.estop = false → exec (.powerOn straps) s = .next b) ∧
    (s.pins.estop = true →
      exec (.powerOn straps) s = exec .estopActive { b with pins.estop := false }) ∧
    (currentContents s.nvm.places = none → b = blank) ∧
    (currentContents s.nvm.places = none → s.pins.estop = true →
      ∃ t, exec (.powerOn straps) s = .next t ∧ hasKind t.events.set .estop = true ∧
        t.events.fault.first = some .estop ∧ t.pins = blank.pins ∧ t.line.mode = .safe)) ∧
  (∀ (straps : BitVec 2) (s : State), s.pins.powered = true → s.pins.resetActive = true →
    let b := loadStore { State.reset with
      pins := { s.pins with resetActive := false, straps := straps }
      events := { EventUnit.reset with fault := s.events.fault }
      link := { Link.reset with cause := .warm, priorMode := s.link.priorMode, straps := straps }
      nvm := { places := s.nvm.places, current := none, writing := none }
      pending := s.pending }
    (s.pins.estop = false → exec (.resetLineRelease straps) s = .next b) ∧
    (s.pins.estop = true →
      exec (.resetLineRelease straps) s = exec .estopActive { b with pins.estop := false })) ∧
  (∀ s : State,
    let off : State → Prop := fun t => t.runs = false ∧ nipPin t = false ∧ feedPin t = false ∧
      beaconPin t = false ∧ (∀ z : Fin 6, heaterPin t z = false) ∧ (∀ n : Fin 5, analogPin t n = 0) ∧
      t.link.receiver = .hunting ∧ t.link.buffer = [] ∧ t.link.slot = none ∧ t.link.sending = none ∧
      t.bands.queue = [] ∧ t.engine.inFlight = none ∧ t.events.reports = [] ∧
      t.nvm.places = s.nvm.places ∧ t.nvm.writing = none
    (s.pins.powered = true → s.pins.resetActive = false →
      ∃ t, exec .resetLineActive s = .next t ∧ off t ∧ t.events.fault = s.events.fault ∧
        t.link.priorMode = some s.line.mode ∧ t.pins = { s.pins with resetActive := true }) ∧
    ∃ t, exec .powerLoss s = .next t ∧ off t ∧ t.events.fault = FaultRecord.empty ∧
      t.link.priorMode = none ∧ t.pins = { s.pins with powered := false })

/-! ## Hand-over -/

/-- R56, R161: a point is handed over when its value changed, and at an arrival the four points of the
channel are handed over whether or not they did. R80, R81: an output whose source is handed over takes the
counts of its source's present value; R161: a watch whose source is handed over judges that value, and an
entry into TRIPPED is offered to the levels; the others stay as they were. An event that hands nothing to an
output or a watch, and left no offer, changes nothing more. -/
def Obligations.PointsHandedOver : Prop :=
  (∀ (arrival : Option (Fin 16)) (old new : State) (p : Point),
    let handed : Prop := readPoint old p ≠ readPoint new p ∨
      ∃ c, arrival = some c ∧
        (p = .chanRaw c ∨ p = .chanScaled c ∨ p = .chanProcessed c ∨ p = .chanStatus c)
    let t := publishArrival arrival old new
    (∀ n : Fin 5, (new.loops.outputs[n]).source = p.number →
      ((∀ m q : Fin 5, (new.loops.outputs[m]).source ≠ (Point.outCounts q).number) → handed →
        (t.loops.outputs[n]).counts = countsFor new.loops.outputs[n] (readPoint new p)) ∧
      ((∀ q : Fin 5, p ≠ .outCounts q) → ¬handed →
        (t.loops.outputs[n]).counts = (new.loops.outputs[n]).counts)) ∧
    ∀ w : Fin 16, (new.react.watches[w]).defn.source = p.number → (∀ q : Fin 5, p ≠ .outCounts q) →
      (handed →
        t.react.watches[w] = (judgeWatch w (readPoint new p) new).react.watches[w] ∧
        ((new.react.watches[w]).state ≠ .tripped → (t.react.watches[w]).state = .tripped →
          .trip w ∈ t.react.deferred)) ∧
      (¬handed → t.react.watches[w] = new.react.watches[w])) ∧
  ∀ old new : State, new.react.deferred = [] →
    (∀ p, readPoint old p ≠ readPoint new p →
      (∀ n : Fin 5, (new.loops.outputs[n]).source ≠ p.number) ∧
      (∀ w : Fin 16, (new.react.watches[w]).defn.source ≠ p.number)) →
    commit old new = new

/-! ## Invariants and laws of the whole part -/

/-- The state right after reset meets every invariant that the statements below say each step keeps, and has
the values that R7, R30, R82, R96, R99, R122, R139, R140, R192 and R203 give for reset. -/
def Obligations.ResetMeetsInvariants : Prop :=
  let r := State.reset
  HeatersHeld r ∧ LineRest r ∧ QueueKept r ∧ SlotsOccupied r ∧ WithinCapacity r ∧ HistoryKept r ∧
    LinkServed r ∧ LockHonoured r ∧ r.line.mode = .off ∧ r.line.reference = 0 ∧ r.line.target = 0 ∧
    r.meas.scan = .continuous ∧ r.meas.first = 0 ∧ r.meas.last = 15 ∧ r.meas.sampleTime = 4 ∧
    r.meas.lastChannel = none ∧
    (∀ c : Fin 16, (r.meas.channels[c]).stale = true ∧ (r.meas.channels[c]).mode = .normal) ∧
    (∀ k : Fin 10, (r.loops.loops[k]).mode = .off ∧ (r.loops.loops[k]).u = 0 ∧
      (r.loops.loops[k]).i = 0 ∧ (r.loops.loops[k]).setpoint = 0) ∧
    (∀ z : Fin 6, heaterPin r z = false ∧ (r.loops.zones[z]).relLimit = none) ∧
    (∀ n : Fin 5, analogPin r n = 0) ∧ r.profiles.current = none ∧ r.profiles.heat = none ∧
    r.profiles.nip = none ∧ r.profiles.seqCounter = 0 ∧ r.bands.queue = [] ∧
    r.bands.idCounter = 0 ∧ (∀ z : Fin 6, r.bands.history[z] = []) ∧ r.engine.inFlight = none ∧
    r.react.executor = none ∧ r.react.lock = false ∧ r.events.set = 0 ∧ r.events.reports = [] ∧
    r.events.fault.kinds = 0 ∧ r.link.silence = none ∧ r.link.silenceArmed = false ∧
    r.pending = []

/-- R23, R74, R77: whatever the command, a zone that is held off, and every zone of a part that does not
run, has active duty 0 and its heater pin off. -/
def Obligations.HeatersHeldKept : Prop :=
  ∀ s t : State, HeatersHeld s → step s = .next t → HeatersHeld t

/-- R7 to R9, R13, R16: whatever the command, the web is at rest, with FEED off, in the modes that rest it,
and only a RUNNING or THREADING line has a ramp of an action in flight. -/
def Obligations.LineRestKept : Prop :=
  ∀ s t : State, LineRest s → step s = .next t → LineRest t

/-- R87, R99, R104, R106: whatever the command, the queue keeps its capacity and distinct ids, at most
four bands are TICKETING, and every slot that a band or a lot names stays occupied. -/
def Obligations.QueueAndSlotsKept : Prop :=
  ∀ s t : State, QueueKept s → SlotsOccupied s → step s = .next t → QueueKept t ∧ SlotsOccupied t

/-- R134, R135, R187 to R189, R197: whatever the command, the report queue, the input buffer and the lane
rings keep their capacities, and every ring entry its range. R197, R199, R207: and no frame waits in the buffer
while the reply slot is empty, but for a RESTART that has been taken, nor a reply or a report while the
transmitter is idle (that the frame is taken within the step is the model's reading, log 3). -/
def Obligations.CapacitiesKept : Prop :=
  ∀ s t : State, step s = .next t →
    (WithinCapacity s → WithinCapacity t) ∧ (HistoryKept s → HistoryKept t) ∧
      (LinkServed s → LinkServed t)

/-- R166, R177: whatever the command, while the reaction lock is set no level but level 0 holds the
executor. -/
def Obligations.LockHonouredKept : Prop :=
  ∀ s t : State, LockHonoured s → step s = .next t → LockHonoured t

/-- R18: no command but LINE_CMD CLEAR, and those that start the part, leads the line out of SAFE. A command
that lets the link take frames (R197) is such a command where one of them is LINE_CMD CLEAR; the end of a sent
frame starts the part only as the reply of a RESTART (R207). -/
def Obligations.SafeLeftByClearAlone : Prop :=
  ∀ (c : Instr) (s t : State), exec c s = .next t → s.line.mode = .safe →
    isLineClear c = false →
    (startsPart c = false ∨ (c = .transmitComplete ∧ s.link.restarting = false)) →
    (∀ f, mayTake c s f → isLineClear (requestOf f) = false) → t.line.mode = .safe

/-- R87: no profile that a queued band names changes while the band is queued. Of a command that lets the link
take frames (R197) it is said where none of them writes or empties a profile slot; the requests that do are
commands themselves, and said of so. -/
def Obligations.NamedProfilesUnchanged : Prop :=
  ∀ (c : Instr) (s t : State), exec c s = .next t →
    (∀ f, mayTake c s f → writesProfiles (requestOf f) = false) → ∀ b ∈ t.bands.queue,
    t.profiles.colour[b.colour] = s.profiles.colour[b.colour] ∧
    t.profiles.fabric[b.fabric] = s.profiles.fabric[b.fabric]

end Statements
end

