-- ==== Sys2Proof/Laws/State.lean ====
section
/-! SUPPORT. What each named update of the state leaves as it was, field by field, and what it makes of
the table it updates. -/

namespace Sys2Proof.Machine

/-! ### modifyChannel -/

@[simp] theorem modifyChannel_pins (c : Fin 16) (f : Channel → Channel) (s : State) : (modifyChannel c f s).pins = s.pins := rfl
@[simp] theorem modifyChannel_line (c : Fin 16) (f : Channel → Channel) (s : State) : (modifyChannel c f s).line = s.line := rfl
@[simp] theorem modifyChannel_loops (c : Fin 16) (f : Channel → Channel) (s : State) : (modifyChannel c f s).loops = s.loops := rfl
@[simp] theorem modifyChannel_profiles (c : Fin 16) (f : Channel → Channel) (s : State) : (modifyChannel c f s).profiles = s.profiles := rfl
@[simp] theorem modifyChannel_bands (c : Fin 16) (f : Channel → Channel) (s : State) : (modifyChannel c f s).bands = s.bands := rfl
@[simp] theorem modifyChannel_engine (c : Fin 16) (f : Channel → Channel) (s : State) : (modifyChannel c f s).engine = s.engine := rfl
@[simp] theorem modifyChannel_react (c : Fin 16) (f : Channel → Channel) (s : State) : (modifyChannel c f s).react = s.react := rfl
@[simp] theorem modifyChannel_events (c : Fin 16) (f : Channel → Channel) (s : State) : (modifyChannel c f s).events = s.events := rfl
@[simp] theorem modifyChannel_link (c : Fin 16) (f : Channel → Channel) (s : State) : (modifyChannel c f s).link = s.link := rfl
@[simp] theorem modifyChannel_nvm (c : Fin 16) (f : Channel → Channel) (s : State) : (modifyChannel c f s).nvm = s.nvm := rfl
@[simp] theorem modifyChannel_user (c : Fin 16) (f : Channel → Channel) (s : State) : (modifyChannel c f s).user = s.user := rfl
@[simp] theorem modifyChannel_pending (c : Fin 16) (f : Channel → Channel) (s : State) : (modifyChannel c f s).pending = s.pending := rfl
@[simp] theorem modifyChannel_meas_scan (c : Fin 16) (f : Channel → Channel) (s : State) : (modifyChannel c f s).meas.scan = s.meas.scan := rfl
@[simp] theorem modifyChannel_meas_first (c : Fin 16) (f : Channel → Channel) (s : State) : (modifyChannel c f s).meas.first = s.meas.first := rfl
@[simp] theorem modifyChannel_meas_last (c : Fin 16) (f : Channel → Channel) (s : State) : (modifyChannel c f s).meas.last = s.meas.last := rfl
@[simp] theorem modifyChannel_meas_sampleTime (c : Fin 16) (f : Channel → Channel) (s : State) : (modifyChannel c f s).meas.sampleTime = s.meas.sampleTime := rfl
@[simp] theorem modifyChannel_meas_converting (c : Fin 16) (f : Channel → Channel) (s : State) : (modifyChannel c f s).meas.converting = s.meas.converting := rfl
@[simp] theorem modifyChannel_meas_lastChannel (c : Fin 16) (f : Channel → Channel) (s : State) : (modifyChannel c f s).meas.lastChannel = s.meas.lastChannel := rfl

/-! ### modifyLoop -/

@[simp] theorem modifyLoop_pins (k : Fin 10) (f : LoopRec → LoopRec) (s : State) : (modifyLoop k f s).pins = s.pins := rfl
@[simp] theorem modifyLoop_line (k : Fin 10) (f : LoopRec → LoopRec) (s : State) : (modifyLoop k f s).line = s.line := rfl
@[simp] theorem modifyLoop_meas (k : Fin 10) (f : LoopRec → LoopRec) (s : State) : (modifyLoop k f s).meas = s.meas := rfl
@[simp] theorem modifyLoop_profiles (k : Fin 10) (f : LoopRec → LoopRec) (s : State) : (modifyLoop k f s).profiles = s.profiles := rfl
@[simp] theorem modifyLoop_bands (k : Fin 10) (f : LoopRec → LoopRec) (s : State) : (modifyLoop k f s).bands = s.bands := rfl
@[simp] theorem modifyLoop_engine (k : Fin 10) (f : LoopRec → LoopRec) (s : State) : (modifyLoop k f s).engine = s.engine := rfl
@[simp] theorem modifyLoop_react (k : Fin 10) (f : LoopRec → LoopRec) (s : State) : (modifyLoop k f s).react = s.react := rfl
@[simp] theorem modifyLoop_events (k : Fin 10) (f : LoopRec → LoopRec) (s : State) : (modifyLoop k f s).events = s.events := rfl
@[simp] theorem modifyLoop_link (k : Fin 10) (f : LoopRec → LoopRec) (s : State) : (modifyLoop k f s).link = s.link := rfl
@[simp] theorem modifyLoop_nvm (k : Fin 10) (f : LoopRec → LoopRec) (s : State) : (modifyLoop k f s).nvm = s.nvm := rfl
@[simp] theorem modifyLoop_user (k : Fin 10) (f : LoopRec → LoopRec) (s : State) : (modifyLoop k f s).user = s.user := rfl
@[simp] theorem modifyLoop_pending (k : Fin 10) (f : LoopRec → LoopRec) (s : State) : (modifyLoop k f s).pending = s.pending := rfl
@[simp] theorem modifyLoop_loops_zones (k : Fin 10) (f : LoopRec → LoopRec) (s : State) : (modifyLoop k f s).loops.zones = s.loops.zones := rfl
@[simp] theorem modifyLoop_loops_spans (k : Fin 10) (f : LoopRec → LoopRec) (s : State) : (modifyLoop k f s).loops.spans = s.loops.spans := rfl
@[simp] theorem modifyLoop_loops_outputs (k : Fin 10) (f : LoopRec → LoopRec) (s : State) : (modifyLoop k f s).loops.outputs = s.loops.outputs := rfl
@[simp] theorem modifyLoop_loops_windowLength (k : Fin 10) (f : LoopRec → LoopRec) (s : State) : (modifyLoop k f s).loops.windowLength = s.loops.windowLength := rfl
@[simp] theorem modifyLoop_loops_heaterWindow (k : Fin 10) (f : LoopRec → LoopRec) (s : State) : (modifyLoop k f s).loops.heaterWindow = s.loops.heaterWindow := rfl
@[simp] theorem modifyLoop_loops_overheatMargin (k : Fin 10) (f : LoopRec → LoopRec) (s : State) : (modifyLoop k f s).loops.overheatMargin = s.loops.overheatMargin := rfl
@[simp] theorem modifyLoop_loops_tAbsMax (k : Fin 10) (f : LoopRec → LoopRec) (s : State) : (modifyLoop k f s).loops.tAbsMax = s.loops.tAbsMax := rfl
@[simp] theorem modifyLoop_loops_standbyTemp (k : Fin 10) (f : LoopRec → LoopRec) (s : State) : (modifyLoop k f s).loops.standbyTemp = s.loops.standbyTemp := rfl

/-! ### modifyZone -/

@[simp] theorem modifyZone_pins (z : Fin 6) (f : Zone → Zone) (s : State) : (modifyZone z f s).pins = s.pins := rfl
@[simp] theorem modifyZone_line (z : Fin 6) (f : Zone → Zone) (s : State) : (modifyZone z f s).line = s.line := rfl
@[simp] theorem modifyZone_meas (z : Fin 6) (f : Zone → Zone) (s : State) : (modifyZone z f s).meas = s.meas := rfl
@[simp] theorem modifyZone_profiles (z : Fin 6) (f : Zone → Zone) (s : State) : (modifyZone z f s).profiles = s.profiles := rfl
@[simp] theorem modifyZone_bands (z : Fin 6) (f : Zone → Zone) (s : State) : (modifyZone z f s).bands = s.bands := rfl
@[simp] theorem modifyZone_engine (z : Fin 6) (f : Zone → Zone) (s : State) : (modifyZone z f s).engine = s.engine := rfl
@[simp] theorem modifyZone_react (z : Fin 6) (f : Zone → Zone) (s : State) : (modifyZone z f s).react = s.react := rfl
@[simp] theorem modifyZone_events (z : Fin 6) (f : Zone → Zone) (s : State) : (modifyZone z f s).events = s.events := rfl
@[simp] theorem modifyZone_link (z : Fin 6) (f : Zone → Zone) (s : State) : (modifyZone z f s).link = s.link := rfl
@[simp] theorem modifyZone_nvm (z : Fin 6) (f : Zone → Zone) (s : State) : (modifyZone z f s).nvm = s.nvm := rfl
@[simp] theorem modifyZone_user (z : Fin 6) (f : Zone → Zone) (s : State) : (modifyZone z f s).user = s.user := rfl
@[simp] theorem modifyZone_pending (z : Fin 6) (f : Zone → Zone) (s : State) : (modifyZone z f s).pending = s.pending := rfl
@[simp] theorem modifyZone_loops_loops (z : Fin 6) (f : Zone → Zone) (s : State) : (modifyZone z f s).loops.loops = s.loops.loops := rfl
@[simp] theorem modifyZone_loops_spans (z : Fin 6) (f : Zone → Zone) (s : State) : (modifyZone z f s).loops.spans = s.loops.spans := rfl
@[simp] theorem modifyZone_loops_outputs (z : Fin 6) (f : Zone → Zone) (s : State) : (modifyZone z f s).loops.outputs = s.loops.outputs := rfl
@[simp] theorem modifyZone_loops_windowLength (z : Fin 6) (f : Zone → Zone) (s : State) : (modifyZone z f s).loops.windowLength = s.loops.windowLength := rfl
@[simp] theorem modifyZone_loops_heaterWindow (z : Fin 6) (f : Zone → Zone) (s : State) : (modifyZone z f s).loops.heaterWindow = s.loops.heaterWindow := rfl
@[simp] theorem modifyZone_loops_overheatMargin (z : Fin 6) (f : Zone → Zone) (s : State) : (modifyZone z f s).loops.overheatMargin = s.loops.overheatMargin := rfl
@[simp] theorem modifyZone_loops_tAbsMax (z : Fin 6) (f : Zone → Zone) (s : State) : (modifyZone z f s).loops.tAbsMax = s.loops.tAbsMax := rfl
@[simp] theorem modifyZone_loops_standbyTemp (z : Fin 6) (f : Zone → Zone) (s : State) : (modifyZone z f s).loops.standbyTemp = s.loops.standbyTemp := rfl

/-! ### modifySpan -/

@[simp] theorem modifySpan_pins (t : Fin 4) (f : Span → Span) (s : State) : (modifySpan t f s).pins = s.pins := rfl
@[simp] theorem modifySpan_line (t : Fin 4) (f : Span → Span) (s : State) : (modifySpan t f s).line = s.line := rfl
@[simp] theorem modifySpan_meas (t : Fin 4) (f : Span → Span) (s : State) : (modifySpan t f s).meas = s.meas := rfl
@[simp] theorem modifySpan_profiles (t : Fin 4) (f : Span → Span) (s : State) : (modifySpan t f s).profiles = s.profiles := rfl
@[simp] theorem modifySpan_bands (t : Fin 4) (f : Span → Span) (s : State) : (modifySpan t f s).bands = s.bands := rfl
@[simp] theorem modifySpan_engine (t : Fin 4) (f : Span → Span) (s : State) : (modifySpan t f s).engine = s.engine := rfl
@[simp] theorem modifySpan_react (t : Fin 4) (f : Span → Span) (s : State) : (modifySpan t f s).react = s.react := rfl
@[simp] theorem modifySpan_events (t : Fin 4) (f : Span → Span) (s : State) : (modifySpan t f s).events = s.events := rfl
@[simp] theorem modifySpan_link (t : Fin 4) (f : Span → Span) (s : State) : (modifySpan t f s).link = s.link := rfl
@[simp] theorem modifySpan_nvm (t : Fin 4) (f : Span → Span) (s : State) : (modifySpan t f s).nvm = s.nvm := rfl
@[simp] theorem modifySpan_user (t : Fin 4) (f : Span → Span) (s : State) : (modifySpan t f s).user = s.user := rfl
@[simp] theorem modifySpan_pending (t : Fin 4) (f : Span → Span) (s : State) : (modifySpan t f s).pending = s.pending := rfl
@[simp] theorem modifySpan_loops_loops (t : Fin 4) (f : Span → Span) (s : State) : (modifySpan t f s).loops.loops = s.loops.loops := rfl
@[simp] theorem modifySpan_loops_zones (t : Fin 4) (f : Span → Span) (s : State) : (modifySpan t f s).loops.zones = s.loops.zones := rfl
@[simp] theorem modifySpan_loops_outputs (t : Fin 4) (f : Span → Span) (s : State) : (modifySpan t f s).loops.outputs = s.loops.outputs := rfl
@[simp] theorem modifySpan_loops_windowLength (t : Fin 4) (f : Span → Span) (s : State) : (modifySpan t f s).loops.windowLength = s.loops.windowLength := rfl
@[simp] theorem modifySpan_loops_heaterWindow (t : Fin 4) (f : Span → Span) (s : State) : (modifySpan t f s).loops.heaterWindow = s.loops.heaterWindow := rfl
@[simp] theorem modifySpan_loops_overheatMargin (t : Fin 4) (f : Span → Span) (s : State) : (modifySpan t f s).loops.overheatMargin = s.loops.overheatMargin := rfl
@[simp] theorem modifySpan_loops_tAbsMax (t : Fin 4) (f : Span → Span) (s : State) : (modifySpan t f s).loops.tAbsMax = s.loops.tAbsMax := rfl
@[simp] theorem modifySpan_loops_standbyTemp (t : Fin 4) (f : Span → Span) (s : State) : (modifySpan t f s).loops.standbyTemp = s.loops.standbyTemp := rfl

/-! ### modifyOutput -/

@[simp] theorem modifyOutput_pins (n : Fin 5) (f : AnalogOut → AnalogOut) (s : State) : (modifyOutput n f s).pins = s.pins := rfl
@[simp] theorem modifyOutput_line (n : Fin 5) (f : AnalogOut → AnalogOut) (s : State) : (modifyOutput n f s).line = s.line := rfl
@[simp] theorem modifyOutput_meas (n : Fin 5) (f : AnalogOut → AnalogOut) (s : State) : (modifyOutput n f s).meas = s.meas := rfl
@[simp] theorem modifyOutput_profiles (n : Fin 5) (f : AnalogOut → AnalogOut) (s : State) : (modifyOutput n f s).profiles = s.profiles := rfl
@[simp] theorem modifyOutput_bands (n : Fin 5) (f : AnalogOut → AnalogOut) (s : State) : (modifyOutput n f s).bands = s.bands := rfl
@[simp] theorem modifyOutput_engine (n : Fin 5) (f : AnalogOut → AnalogOut) (s : State) : (modifyOutput n f s).engine = s.engine := rfl
@[simp] theorem modifyOutput_react (n : Fin 5) (f : AnalogOut → AnalogOut) (s : State) : (modifyOutput n f s).react = s.react := rfl
@[simp] theorem modifyOutput_events (n : Fin 5) (f : AnalogOut → AnalogOut) (s : State) : (modifyOutput n f s).events = s.events := rfl
@[simp] theorem modifyOutput_link (n : Fin 5) (f : AnalogOut → AnalogOut) (s : State) : (modifyOutput n f s).link = s.link := rfl
@[simp] theorem modifyOutput_nvm (n : Fin 5) (f : AnalogOut → AnalogOut) (s : State) : (modifyOutput n f s).nvm = s.nvm := rfl
@[simp] theorem modifyOutput_user (n : Fin 5) (f : AnalogOut → AnalogOut) (s : State) : (modifyOutput n f s).user = s.user := rfl
@[simp] theorem modifyOutput_pending (n : Fin 5) (f : AnalogOut → AnalogOut) (s : State) : (modifyOutput n f s).pending = s.pending := rfl
@[simp] theorem modifyOutput_loops_loops (n : Fin 5) (f : AnalogOut → AnalogOut) (s : State) : (modifyOutput n f s).loops.loops = s.loops.loops := rfl
@[simp] theorem modifyOutput_loops_zones (n : Fin 5) (f : AnalogOut → AnalogOut) (s : State) : (modifyOutput n f s).loops.zones = s.loops.zones := rfl
@[simp] theorem modifyOutput_loops_spans (n : Fin 5) (f : AnalogOut → AnalogOut) (s : State) : (modifyOutput n f s).loops.spans = s.loops.spans := rfl
@[simp] theorem modifyOutput_loops_windowLength (n : Fin 5) (f : AnalogOut → AnalogOut) (s : State) : (modifyOutput n f s).loops.windowLength = s.loops.windowLength := rfl
@[simp] theorem modifyOutput_loops_heaterWindow (n : Fin 5) (f : AnalogOut → AnalogOut) (s : State) : (modifyOutput n f s).loops.heaterWindow = s.loops.heaterWindow := rfl
@[simp] theorem modifyOutput_loops_overheatMargin (n : Fin 5) (f : AnalogOut → AnalogOut) (s : State) : (modifyOutput n f s).loops.overheatMargin = s.loops.overheatMargin := rfl
@[simp] theorem modifyOutput_loops_tAbsMax (n : Fin 5) (f : AnalogOut → AnalogOut) (s : State) : (modifyOutput n f s).loops.tAbsMax = s.loops.tAbsMax := rfl
@[simp] theorem modifyOutput_loops_standbyTemp (n : Fin 5) (f : AnalogOut → AnalogOut) (s : State) : (modifyOutput n f s).loops.standbyTemp = s.loops.standbyTemp := rfl

/-! ### modifyWatch -/

@[simp] theorem modifyWatch_pins (w : Fin 16) (f : Watch → Watch) (s : State) : (modifyWatch w f s).pins = s.pins := rfl
@[simp] theorem modifyWatch_line (w : Fin 16) (f : Watch → Watch) (s : State) : (modifyWatch w f s).line = s.line := rfl
@[simp] theorem modifyWatch_meas (w : Fin 16) (f : Watch → Watch) (s : State) : (modifyWatch w f s).meas = s.meas := rfl
@[simp] theorem modifyWatch_loops (w : Fin 16) (f : Watch → Watch) (s : State) : (modifyWatch w f s).loops = s.loops := rfl
@[simp] theorem modifyWatch_profiles (w : Fin 16) (f : Watch → Watch) (s : State) : (modifyWatch w f s).profiles = s.profiles := rfl
@[simp] theorem modifyWatch_bands (w : Fin 16) (f : Watch → Watch) (s : State) : (modifyWatch w f s).bands = s.bands := rfl
@[simp] theorem modifyWatch_engine (w : Fin 16) (f : Watch → Watch) (s : State) : (modifyWatch w f s).engine = s.engine := rfl
@[simp] theorem modifyWatch_events (w : Fin 16) (f : Watch → Watch) (s : State) : (modifyWatch w f s).events = s.events := rfl
@[simp] theorem modifyWatch_link (w : Fin 16) (f : Watch → Watch) (s : State) : (modifyWatch w f s).link = s.link := rfl
@[simp] theorem modifyWatch_nvm (w : Fin 16) (f : Watch → Watch) (s : State) : (modifyWatch w f s).nvm = s.nvm := rfl
@[simp] theorem modifyWatch_user (w : Fin 16) (f : Watch → Watch) (s : State) : (modifyWatch w f s).user = s.user := rfl
@[simp] theorem modifyWatch_pending (w : Fin 16) (f : Watch → Watch) (s : State) : (modifyWatch w f s).pending = s.pending := rfl
@[simp] theorem modifyWatch_react_levels (w : Fin 16) (f : Watch → Watch) (s : State) : (modifyWatch w f s).react.levels = s.react.levels := rfl
@[simp] theorem modifyWatch_react_executor (w : Fin 16) (f : Watch → Watch) (s : State) : (modifyWatch w f s).react.executor = s.react.executor := rfl
@[simp] theorem modifyWatch_react_lock (w : Fin 16) (f : Watch → Watch) (s : State) : (modifyWatch w f s).react.lock = s.react.lock := rfl
@[simp] theorem modifyWatch_react_deferred (w : Fin 16) (f : Watch → Watch) (s : State) : (modifyWatch w f s).react.deferred = s.react.deferred := rfl

/-! ### modifyLevel -/

@[simp] theorem modifyLevel_pins (l : Fin 16) (f : Level → Level) (s : State) : (modifyLevel l f s).pins = s.pins := rfl
@[simp] theorem modifyLevel_line (l : Fin 16) (f : Level → Level) (s : State) : (modifyLevel l f s).line = s.line := rfl
@[simp] theorem modifyLevel_meas (l : Fin 16) (f : Level → Level) (s : State) : (modifyLevel l f s).meas = s.meas := rfl
@[simp] theorem modifyLevel_loops (l : Fin 16) (f : Level → Level) (s : State) : (modifyLevel l f s).loops = s.loops := rfl
@[simp] theorem modifyLevel_profiles (l : Fin 16) (f : Level → Level) (s : State) : (modifyLevel l f s).profiles = s.profiles := rfl
@[simp] theorem modifyLevel_bands (l : Fin 16) (f : Level → Level) (s : State) : (modifyLevel l f s).bands = s.bands := rfl
@[simp] theorem modifyLevel_engine (l : Fin 16) (f : Level → Level) (s : State) : (modifyLevel l f s).engine = s.engine := rfl
@[simp] theorem modifyLevel_events (l : Fin 16) (f : Level → Level) (s : State) : (modifyLevel l f s).events = s.events := rfl
@[simp] theorem modifyLevel_link (l : Fin 16) (f : Level → Level) (s : State) : (modifyLevel l f s).link = s.link := rfl
@[simp] theorem modifyLevel_nvm (l : Fin 16) (f : Level → Level) (s : State) : (modifyLevel l f s).nvm = s.nvm := rfl
@[simp] theorem modifyLevel_user (l : Fin 16) (f : Level → Level) (s : State) : (modifyLevel l f s).user = s.user := rfl
@[simp] theorem modifyLevel_pending (l : Fin 16) (f : Level → Level) (s : State) : (modifyLevel l f s).pending = s.pending := rfl
@[simp] theorem modifyLevel_react_watches (l : Fin 16) (f : Level → Level) (s : State) : (modifyLevel l f s).react.watches = s.react.watches := rfl
@[simp] theorem modifyLevel_react_executor (l : Fin 16) (f : Level → Level) (s : State) : (modifyLevel l f s).react.executor = s.react.executor := rfl
@[simp] theorem modifyLevel_react_lock (l : Fin 16) (f : Level → Level) (s : State) : (modifyLevel l f s).react.lock = s.react.lock := rfl
@[simp] theorem modifyLevel_react_deferred (l : Fin 16) (f : Level → Level) (s : State) : (modifyLevel l f s).react.deferred = s.react.deferred := rfl

/-! ### modifyBand -/

@[simp] theorem modifyBand_pins (id : Nat) (f : Band → Band) (s : State) : (modifyBand id f s).pins = s.pins := rfl
@[simp] theorem modifyBand_line (id : Nat) (f : Band → Band) (s : State) : (modifyBand id f s).line = s.line := rfl
@[simp] theorem modifyBand_meas (id : Nat) (f : Band → Band) (s : State) : (modifyBand id f s).meas = s.meas := rfl
@[simp] theorem modifyBand_loops (id : Nat) (f : Band → Band) (s : State) : (modifyBand id f s).loops = s.loops := rfl
@[simp] theorem modifyBand_profiles (id : Nat) (f : Band → Band) (s : State) : (modifyBand id f s).profiles = s.profiles := rfl
@[simp] theorem modifyBand_engine (id : Nat) (f : Band → Band) (s : State) : (modifyBand id f s).engine = s.engine := rfl
@[simp] theorem modifyBand_react (id : Nat) (f : Band → Band) (s : State) : (modifyBand id f s).react = s.react := rfl
@[simp] theorem modifyBand_events (id : Nat) (f : Band → Band) (s : State) : (modifyBand id f s).events = s.events := rfl
@[simp] theorem modifyBand_link (id : Nat) (f : Band → Band) (s : State) : (modifyBand id f s).link = s.link := rfl
@[simp] theorem modifyBand_nvm (id : Nat) (f : Band → Band) (s : State) : (modifyBand id f s).nvm = s.nvm := rfl
@[simp] theorem modifyBand_user (id : Nat) (f : Band → Band) (s : State) : (modifyBand id f s).user = s.user := rfl
@[simp] theorem modifyBand_pending (id : Nat) (f : Band → Band) (s : State) : (modifyBand id f s).pending = s.pending := rfl
@[simp] theorem modifyBand_bands_idCounter (id : Nat) (f : Band → Band) (s : State) : (modifyBand id f s).bands.idCounter = s.bands.idCounter := rfl
@[simp] theorem modifyBand_bands_history (id : Nat) (f : Band → Band) (s : State) : (modifyBand id f s).bands.history = s.bands.history := rfl
@[simp] theorem modifyBand_bands_doseTol (id : Nat) (f : Band → Band) (s : State) : (modifyBand id f s).bands.doseTol = s.bands.doseTol := rfl

/-! ### removeBand -/

@[simp] theorem removeBand_pins (id : Nat) (s : State) : (removeBand id s).pins = s.pins := rfl
@[simp] theorem removeBand_line (id : Nat) (s : State) : (removeBand id s).line = s.line := rfl
@[simp] theorem removeBand_meas (id : Nat) (s : State) : (removeBand id s).meas = s.meas := rfl
@[simp] theorem removeBand_loops (id : Nat) (s : State) : (removeBand id s).loops = s.loops := rfl
@[simp] theorem removeBand_profiles (id : Nat) (s : State) : (removeBand id s).profiles = s.profiles := rfl
@[simp] theorem removeBand_engine (id : Nat) (s : State) : (removeBand id s).engine = s.engine := rfl
@[simp] theorem removeBand_react (id : Nat) (s : State) : (removeBand id s).react = s.react := rfl
@[simp] theorem removeBand_events (id : Nat) (s : State) : (removeBand id s).events = s.events := rfl
@[simp] theorem removeBand_link (id : Nat) (s : State) : (removeBand id s).link = s.link := rfl
@[simp] theorem removeBand_nvm (id : Nat) (s : State) : (removeBand id s).nvm = s.nvm := rfl
@[simp] theorem removeBand_user (id : Nat) (s : State) : (removeBand id s).user = s.user := rfl
@[simp] theorem removeBand_pending (id : Nat) (s : State) : (removeBand id s).pending = s.pending := rfl
@[simp] theorem removeBand_bands_idCounter (id : Nat) (s : State) : (removeBand id s).bands.idCounter = s.bands.idCounter := rfl
@[simp] theorem removeBand_bands_history (id : Nat) (s : State) : (removeBand id s).bands.history = s.bands.history := rfl
@[simp] theorem removeBand_bands_doseTol (id : Nat) (s : State) : (removeBand id s).bands.doseTol = s.bands.doseTol := rfl

/-! ### setFlag -/

@[simp] theorem setFlag_pins (k : EventKind) (s : State) : (setFlag k s).pins = s.pins := rfl
@[simp] theorem setFlag_line (k : EventKind) (s : State) : (setFlag k s).line = s.line := rfl
@[simp] theorem setFlag_meas (k : EventKind) (s : State) : (setFlag k s).meas = s.meas := rfl
@[simp] theorem setFlag_loops (k : EventKind) (s : State) : (setFlag k s).loops = s.loops := rfl
@[simp] theorem setFlag_profiles (k : EventKind) (s : State) : (setFlag k s).profiles = s.profiles := rfl
@[simp] theorem setFlag_bands (k : EventKind) (s : State) : (setFlag k s).bands = s.bands := rfl
@[simp] theorem setFlag_engine (k : EventKind) (s : State) : (setFlag k s).engine = s.engine := rfl
@[simp] theorem setFlag_react (k : EventKind) (s : State) : (setFlag k s).react = s.react := rfl
@[simp] theorem setFlag_link (k : EventKind) (s : State) : (setFlag k s).link = s.link := rfl
@[simp] theorem setFlag_nvm (k : EventKind) (s : State) : (setFlag k s).nvm = s.nvm := rfl
@[simp] theorem setFlag_user (k : EventKind) (s : State) : (setFlag k s).user = s.user := rfl
@[simp] theorem setFlag_pending (k : EventKind) (s : State) : (setFlag k s).pending = s.pending := rfl
@[simp] theorem setFlag_events_mask (k : EventKind) (s : State) : (setFlag k s).events.mask = s.events.mask := rfl
@[simp] theorem setFlag_events_reports (k : EventKind) (s : State) : (setFlag k s).events.reports = s.events.reports := rfl
@[simp] theorem setFlag_events_discarded (k : EventKind) (s : State) : (setFlag k s).events.discarded = s.events.discarded := rfl
@[simp] theorem setFlag_events_owed (k : EventKind) (s : State) : (setFlag k s).events.owed = s.events.owed := rfl
@[simp] theorem setFlag_events_fault (k : EventKind) (s : State) : (setFlag k s).events.fault = s.events.fault := rfl

/-! ### deferOffer -/

@[simp] theorem deferOffer_pins (d : Deferred) (s : State) : (deferOffer d s).pins = s.pins := rfl
@[simp] theorem deferOffer_line (d : Deferred) (s : State) : (deferOffer d s).line = s.line := rfl
@[simp] theorem deferOffer_meas (d : Deferred) (s : State) : (deferOffer d s).meas = s.meas := rfl
@[simp] theorem deferOffer_loops (d : Deferred) (s : State) : (deferOffer d s).loops = s.loops := rfl
@[simp] theorem deferOffer_profiles (d : Deferred) (s : State) : (deferOffer d s).profiles = s.profiles := rfl
@[simp] theorem deferOffer_bands (d : Deferred) (s : State) : (deferOffer d s).bands = s.bands := rfl
@[simp] theorem deferOffer_engine (d : Deferred) (s : State) : (deferOffer d s).engine = s.engine := rfl
@[simp] theorem deferOffer_events (d : Deferred) (s : State) : (deferOffer d s).events = s.events := rfl
@[simp] theorem deferOffer_link (d : Deferred) (s : State) : (deferOffer d s).link = s.link := rfl
@[simp] theorem deferOffer_nvm (d : Deferred) (s : State) : (deferOffer d s).nvm = s.nvm := rfl
@[simp] theorem deferOffer_user (d : Deferred) (s : State) : (deferOffer d s).user = s.user := rfl
@[simp] theorem deferOffer_pending (d : Deferred) (s : State) : (deferOffer d s).pending = s.pending := rfl
@[simp] theorem deferOffer_react_watches (d : Deferred) (s : State) : (deferOffer d s).react.watches = s.react.watches := rfl
@[simp] theorem deferOffer_react_levels (d : Deferred) (s : State) : (deferOffer d s).react.levels = s.react.levels := rfl
@[simp] theorem deferOffer_react_executor (d : Deferred) (s : State) : (deferOffer d s).react.executor = s.react.executor := rfl
@[simp] theorem deferOffer_react_lock (d : Deferred) (s : State) : (deferOffer d s).react.lock = s.react.lock := rfl

/-! ### endDwell -/

@[simp] theorem endDwell_pins (s : State) : (endDwell s).pins = s.pins := rfl
@[simp] theorem endDwell_meas (s : State) : (endDwell s).meas = s.meas := rfl
@[simp] theorem endDwell_loops (s : State) : (endDwell s).loops = s.loops := rfl
@[simp] theorem endDwell_profiles (s : State) : (endDwell s).profiles = s.profiles := rfl
@[simp] theorem endDwell_bands (s : State) : (endDwell s).bands = s.bands := rfl
@[simp] theorem endDwell_engine (s : State) : (endDwell s).engine = s.engine := rfl
@[simp] theorem endDwell_react (s : State) : (endDwell s).react = s.react := rfl
@[simp] theorem endDwell_events (s : State) : (endDwell s).events = s.events := rfl
@[simp] theorem endDwell_link (s : State) : (endDwell s).link = s.link := rfl
@[simp] theorem endDwell_nvm (s : State) : (endDwell s).nvm = s.nvm := rfl
@[simp] theorem endDwell_user (s : State) : (endDwell s).user = s.user := rfl
@[simp] theorem endDwell_pending (s : State) : (endDwell s).pending = s.pending := rfl
@[simp] theorem endDwell_line_count (s : State) : (endDwell s).line.count = s.line.count := rfl
@[simp] theorem endDwell_line_sample (s : State) : (endDwell s).line.sample = s.line.sample := rfl
@[simp] theorem endDwell_line_position (s : State) : (endDwell s).line.position = s.line.position := rfl
@[simp] theorem endDwell_line_speed (s : State) : (endDwell s).line.speed = s.line.speed := rfl
@[simp] theorem endDwell_line_reference (s : State) : (endDwell s).line.reference = s.line.reference := rfl
@[simp] theorem endDwell_line_target (s : State) : (endDwell s).line.target = s.line.target := rfl
@[simp] theorem endDwell_line_rateSource (s : State) : (endDwell s).line.rateSource = s.line.rateSource := rfl
@[simp] theorem endDwell_line_owner (s : State) : (endDwell s).line.owner = s.line.owner := rfl
@[simp] theorem endDwell_line_mode (s : State) : (endDwell s).line.mode = s.line.mode := rfl
@[simp] theorem endDwell_line_phase (s : State) : (endDwell s).line.phase = s.line.phase := rfl
@[simp] theorem endDwell_line_nip (s : State) : (endDwell s).line.nip = s.line.nip := rfl
@[simp] theorem endDwell_line_feed (s : State) : (endDwell s).line.feed = s.line.feed := rfl
@[simp] theorem endDwell_line_beacon (s : State) : (endDwell s).line.beacon = s.line.beacon := rfl
@[simp] theorem endDwell_line_heatHold (s : State) : (endDwell s).line.heatHold = s.line.heatHold := rfl
@[simp] theorem endDwell_line_countsPerMm (s : State) : (endDwell s).line.countsPerMm = s.line.countsPerMm := rfl
@[simp] theorem endDwell_line_pIn (s : State) : (endDwell s).line.pIn = s.line.pIn := rfl
@[simp] theorem endDwell_line_lWrap (s : State) : (endDwell s).line.lWrap = s.line.lWrap := rfl
@[simp] theorem endDwell_line_pExitMargin (s : State) : (endDwell s).line.pExitMargin = s.line.pExitMargin := rfl
@[simp] theorem endDwell_line_heatLead (s : State) : (endDwell s).line.heatLead = s.line.heatLead := rfl
@[simp] theorem endDwell_line_rampRate (s : State) : (endDwell s).line.rampRate = s.line.rampRate := rfl
@[simp] theorem endDwell_line_stopRate (s : State) : (endDwell s).line.stopRate = s.line.stopRate := rfl
@[simp] theorem endDwell_line_vMax (s : State) : (endDwell s).line.vMax = s.line.vMax := rfl
@[simp] theorem endDwell_line_vThread (s : State) : (endDwell s).line.vThread = s.line.vThread := rfl
@[simp] theorem endDwell_line_liftOnStop (s : State) : (endDwell s).line.liftOnStop = s.line.liftOnStop := rfl
@[simp] theorem endDwell_line_readyBand (s : State) : (endDwell s).line.readyBand = s.line.readyBand := rfl
@[simp] theorem endDwell_line_readyDwell (s : State) : (endDwell s).line.readyDwell = s.line.readyDwell := rfl

/-! ### setPending -/

@[simp] theorem setPending_pins (named : Fin 16 → Bool) (cause : Cause) (s : State) : (setPending named cause s).pins = s.pins := rfl
@[simp] theorem setPending_line (named : Fin 16 → Bool) (cause : Cause) (s : State) : (setPending named cause s).line = s.line := rfl
@[simp] theorem setPending_meas (named : Fin 16 → Bool) (cause : Cause) (s : State) : (setPending named cause s).meas = s.meas := rfl
@[simp] theorem setPending_loops (named : Fin 16 → Bool) (cause : Cause) (s : State) : (setPending named cause s).loops = s.loops := rfl
@[simp] theorem setPending_profiles (named : Fin 16 → Bool) (cause : Cause) (s : State) : (setPending named cause s).profiles = s.profiles := rfl
@[simp] theorem setPending_bands (named : Fin 16 → Bool) (cause : Cause) (s : State) : (setPending named cause s).bands = s.bands := rfl
@[simp] theorem setPending_engine (named : Fin 16 → Bool) (cause : Cause) (s : State) : (setPending named cause s).engine = s.engine := rfl
@[simp] theorem setPending_events (named : Fin 16 → Bool) (cause : Cause) (s : State) : (setPending named cause s).events = s.events := rfl
@[simp] theorem setPending_link (named : Fin 16 → Bool) (cause : Cause) (s : State) : (setPending named cause s).link = s.link := rfl
@[simp] theorem setPending_nvm (named : Fin 16 → Bool) (cause : Cause) (s : State) : (setPending named cause s).nvm = s.nvm := rfl
@[simp] theorem setPending_user (named : Fin 16 → Bool) (cause : Cause) (s : State) : (setPending named cause s).user = s.user := rfl
@[simp] theorem setPending_pending (named : Fin 16 → Bool) (cause : Cause) (s : State) : (setPending named cause s).pending = s.pending := rfl
@[simp] theorem setPending_react_watches (named : Fin 16 → Bool) (cause : Cause) (s : State) : (setPending named cause s).react.watches = s.react.watches := rfl
@[simp] theorem setPending_react_executor (named : Fin 16 → Bool) (cause : Cause) (s : State) : (setPending named cause s).react.executor = s.react.executor := rfl
@[simp] theorem setPending_react_lock (named : Fin 16 → Bool) (cause : Cause) (s : State) : (setPending named cause s).react.lock = s.react.lock := rfl
@[simp] theorem setPending_react_deferred (named : Fin 16 → Bool) (cause : Cause) (s : State) : (setPending named cause s).react.deferred = s.react.deferred := rfl

/-! ### dropReports -/

@[simp] theorem dropReports_pins (s : State) : (dropReports s).pins = s.pins := rfl
@[simp] theorem dropReports_line (s : State) : (dropReports s).line = s.line := rfl
@[simp] theorem dropReports_meas (s : State) : (dropReports s).meas = s.meas := rfl
@[simp] theorem dropReports_loops (s : State) : (dropReports s).loops = s.loops := rfl
@[simp] theorem dropReports_profiles (s : State) : (dropReports s).profiles = s.profiles := rfl
@[simp] theorem dropReports_bands (s : State) : (dropReports s).bands = s.bands := rfl
@[simp] theorem dropReports_engine (s : State) : (dropReports s).engine = s.engine := rfl
@[simp] theorem dropReports_events (s : State) : (dropReports s).events = s.events := rfl
@[simp] theorem dropReports_link (s : State) : (dropReports s).link = s.link := rfl
@[simp] theorem dropReports_nvm (s : State) : (dropReports s).nvm = s.nvm := rfl
@[simp] theorem dropReports_user (s : State) : (dropReports s).user = s.user := rfl
@[simp] theorem dropReports_pending (s : State) : (dropReports s).pending = s.pending := rfl
@[simp] theorem dropReports_react_watches (s : State) : (dropReports s).react.watches = s.react.watches := rfl
@[simp] theorem dropReports_react_levels (s : State) : (dropReports s).react.levels = s.react.levels := rfl
@[simp] theorem dropReports_react_executor (s : State) : (dropReports s).react.executor = s.react.executor := rfl
@[simp] theorem dropReports_react_lock (s : State) : (dropReports s).react.lock = s.react.lock := rfl

/-! ### endLevelWork -/

@[simp] theorem endLevelWork_pins (s : State) : (endLevelWork s).pins = s.pins := rfl
@[simp] theorem endLevelWork_line (s : State) : (endLevelWork s).line = s.line := rfl
@[simp] theorem endLevelWork_meas (s : State) : (endLevelWork s).meas = s.meas := rfl
@[simp] theorem endLevelWork_loops (s : State) : (endLevelWork s).loops = s.loops := rfl
@[simp] theorem endLevelWork_profiles (s : State) : (endLevelWork s).profiles = s.profiles := rfl
@[simp] theorem endLevelWork_bands (s : State) : (endLevelWork s).bands = s.bands := rfl
@[simp] theorem endLevelWork_engine (s : State) : (endLevelWork s).engine = s.engine := rfl
@[simp] theorem endLevelWork_events (s : State) : (endLevelWork s).events = s.events := rfl
@[simp] theorem endLevelWork_link (s : State) : (endLevelWork s).link = s.link := rfl
@[simp] theorem endLevelWork_nvm (s : State) : (endLevelWork s).nvm = s.nvm := rfl
@[simp] theorem endLevelWork_user (s : State) : (endLevelWork s).user = s.user := rfl
@[simp] theorem endLevelWork_pending (s : State) : (endLevelWork s).pending = s.pending := rfl
@[simp] theorem endLevelWork_react_watches (s : State) : (endLevelWork s).react.watches = s.react.watches := rfl
@[simp] theorem endLevelWork_react_executor (s : State) : (endLevelWork s).react.executor = s.react.executor := rfl
@[simp] theorem endLevelWork_react_lock (s : State) : (endLevelWork s).react.lock = s.react.lock := rfl
@[simp] theorem endLevelWork_react_deferred (s : State) : (endLevelWork s).react.deferred = s.react.deferred := rfl

theorem modifyChannel_getElem (c : Fin 16) (f : Channel → Channel) (s : State) (j : Nat) (h : j < 16) :
    (modifyChannel c f s).meas.channels[j] = if j = c.val then f s.meas.channels[j] else s.meas.channels[j] := by
  by_cases hj : j = c.val
  · subst hj; simp [modifyChannel]
  · simp [modifyChannel, upd_getElem, hj]

theorem modifyLoop_getElem (k : Fin 10) (f : LoopRec → LoopRec) (s : State) (j : Nat) (h : j < 10) :
    (modifyLoop k f s).loops.loops[j] = if j = k.val then f s.loops.loops[j] else s.loops.loops[j] := by
  by_cases hj : j = k.val
  · subst hj; simp [modifyLoop]
  · simp [modifyLoop, upd_getElem, hj]

theorem modifyZone_getElem (z : Fin 6) (f : Zone → Zone) (s : State) (j : Nat) (h : j < 6) :
    (modifyZone z f s).loops.zones[j] = if j = z.val then f s.loops.zones[j] else s.loops.zones[j] := by
  by_cases hj : j = z.val
  · subst hj; simp [modifyZone]
  · simp [modifyZone, upd_getElem, hj]

theorem modifySpan_getElem (t : Fin 4) (f : Span → Span) (s : State) (j : Nat) (h : j < 4) :
    (modifySpan t f s).loops.spans[j] = if j = t.val then f s.loops.spans[j] else s.loops.spans[j] := by
  by_cases hj : j = t.val
  · subst hj; simp [modifySpan]
  · simp [modifySpan, upd_getElem, hj]

theorem modifyOutput_getElem (n : Fin 5) (f : AnalogOut → AnalogOut) (s : State) (j : Nat) (h : j < 5) :
    (modifyOutput n f s).loops.outputs[j] = if j = n.val then f s.loops.outputs[j] else s.loops.outputs[j] := by
  by_cases hj : j = n.val
  · subst hj; simp [modifyOutput]
  · simp [modifyOutput, upd_getElem, hj]

theorem modifyWatch_getElem (w : Fin 16) (f : Watch → Watch) (s : State) (j : Nat) (h : j < 16) :
    (modifyWatch w f s).react.watches[j] = if j = w.val then f s.react.watches[j] else s.react.watches[j] := by
  by_cases hj : j = w.val
  · subst hj; simp [modifyWatch]
  · simp [modifyWatch, upd_getElem, hj]

theorem modifyLevel_getElem (l : Fin 16) (f : Level → Level) (s : State) (j : Nat) (h : j < 16) :
    (modifyLevel l f s).react.levels[j] = if j = l.val then f s.react.levels[j] else s.react.levels[j] := by
  by_cases hj : j = l.val
  · subst hj; simp [modifyLevel]
  · simp [modifyLevel, upd_getElem, hj]

@[simp] theorem modifyBand_queue (id : Nat) (f : Band → Band) (s : State) :
    (modifyBand id f s).bands.queue = s.bands.queue.map fun b => if b.id = id then f b else b := rfl

@[simp] theorem removeBand_queue (id : Nat) (s : State) :
    (removeBand id s).bands.queue = s.bands.queue.filter fun b => b.id != id := rfl

@[simp] theorem setFlag_set (k : EventKind) (s : State) :
    (setFlag k s).events.set = s.events.set ||| k.bit := rfl

@[simp] theorem deferOffer_deferred (d : Deferred) (s : State) :
    (deferOffer d s).react.deferred = s.react.deferred ++ [d] := rfl

/-! ### Image places -/

@[simp] theorem Place.valid_blank : Place.blank.valid = none := rfl

@[simp] theorem Place.valid_image (g : Nat) (c : Contents) :
    (Place.image g c (imageCheck g c)).valid = some (g, c) := by simp [Place.valid]

/-- R209: until its write has ended, an image is not valid. -/
@[simp] theorem unfinishedImage_valid (g : Nat) (c : Contents) : (unfinishedImage g c).valid = none := by
  have h : ~~~ imageCheck g c ≠ imageCheck g c := fun e => by
    simpa using congrArg (fun x => x.getLsbD 0) e
  simp [unfinishedImage, Place.valid, h]

/-- R209: the read-back that agrees makes it valid. -/
@[simp] theorem unfinishedImage_confirmed (g : Nat) (c : Contents) :
    (unfinishedImage g c).confirmed = .image g c (imageCheck g c) := rfl

end Sys2Proof.Machine
end

