-- ==== Sys2Proof/Laws/Kept.lean ====
section
/-! SUPPORT. What the reaction unit can do to the state, said once: a property that its elementary
operations keep is kept by every hand-over, run, auction and taken offer. -/

namespace Sys2Proof.Machine

/-- P is kept by the elementary operations of hand-overs and reactions. -/
structure Kept (P : State → Prop) : Prop where
  output : ∀ n s, P s → P (recomputeOutput n s)
  watch : ∀ w f s, P s → P (modifyWatch w f s)
  levels : ∀ v s, P s → P { s with react.levels := v }
  deferred : ∀ ds s, P s → P { s with react.deferred := ds }
  free : ∀ s, P s → P { s with react.executor := none }
  hold : ∀ w s, P s → (s.react.lock = true → w.val = 0) → P { s with react.executor := some w }
  raise : ∀ k d s, P s → P (record k d s)
  write : ∀ p v s, P s → p.cls = .setting → P (settingWrite p v s).state
  ramp : ∀ t r s, P s → P (startRamp t r s)
  abandon : ∀ s, P s → P (abandonRamp s)
  lift : ∀ s, P s → P (liftNip s)
  stop : ∀ s, P s → P (stopLine s)
  heatHold : ∀ s, P s → P (setHeatHold true s)
  beacon : ∀ s, P s → P { s with line.beacon := true }
  report : ∀ w s, P s → P (reportAction w s)
  safe : ∀ s, P s → s.line.mode ≠ .safe → P (safeLine s)

/-- A fold keeps what each of its steps keeps. -/
theorem foldl_kept {α : Type} {P : State → Prop} (f : State → α → State)
    (h : ∀ s a, P s → P (f s a)) (l : List α) : ∀ s, P s → P (l.foldl f s) := by
  induction l with
  | nil => intro s hs; exact hs
  | cons a l ih => intro s hs; exact ih _ (h s a hs)

namespace Kept

variable {P : State → Prop}

theorem deferOffer (k : Kept P) (d : Deferred) (s : State) (h : P s) :
    P (Machine.deferOffer d s) := k.deferred _ s h

theorem judgeWatch (k : Kept P) (w : Fin 16) (v : Int) (s : State) (h : P s) :
    P (Machine.judgeWatch w v s) := by
  unfold Machine.judgeWatch
  dsimp only
  split
  · exact k.deferOffer _ _ (k.watch _ _ _ h)
  · exact k.watch _ _ _ h

theorem handToOutput (k : Kept P) (old : State) (a : Option (Fin 16)) (s : State) (n : Fin 5)
    (h : P s) : P (Machine.handToOutput old a s n) := by
  unfold Machine.handToOutput
  split
  · exact h
  · split
    · exact k.output _ _ h
    · exact h

theorem settleOutputs (k : Kept P) (old : State) (a : Option (Fin 16)) (n : Nat) :
    ∀ s, P s → P (Machine.settleOutputs old a n s) := by
  induction n with
  | zero => intro s h; exact h
  | succ n ih =>
    intro s h
    exact ih _ (foldl_kept _ (fun s n h => k.handToOutput old a s n h) _ _ h)

theorem handToWatch (k : Kept P) (old new : State) (a : Option (Fin 16)) (s : State) (w : Fin 16)
    (h : P s) : P (Machine.handToWatch old new a s w) := by
  unfold Machine.handToWatch
  split
  · exact h
  · split
    · exact k.judgeWatch _ _ _ h
    · exact h

theorem publishArrival (k : Kept P) (a : Option (Fin 16)) (old new : State) (h : P new) :
    P (Machine.publishArrival a old new) := by
  unfold Machine.publishArrival
  exact foldl_kept _ (fun s w h => k.handToWatch old _ a s w h) _ _ (k.settleOutputs old a 5 _ h)

theorem publish (k : Kept P) (old new : State) (h : P new) : P (Machine.publish old new) :=
  k.publishArrival none old new h

theorem modifyLevel (k : Kept P) (l : Fin 16) (f : Level → Level) (s : State) (h : P s) :
    P (Machine.modifyLevel l f s) := k.levels _ s h

theorem setPending (k : Kept P) (n : Fin 16 → Bool) (c : Cause) (s : State) (h : P s) :
    P (Machine.setPending n c s) := k.levels _ s h

theorem dropReports (k : Kept P) (s : State) (h : P s) : P (Machine.dropReports s) :=
  k.deferred _ s h

theorem writeAsReaction (k : Kept P) (d : Nat) (v : Int) (s : State) (h : P s) :
    P (Machine.writeAsReaction d v s) := by
  unfold Machine.writeAsReaction
  split
  · exact h
  · rename_i p _
    cases hc : p.cls <;> simp only [] <;> first | exact k.write p v s h hc | exact h

theorem safeAction (k : Kept P) (s : State) (h : P s) : P (Machine.safeAction s) := by
  unfold Machine.safeAction
  split
  · exact h
  · rename_i hm
    exact k.levels _ _ (k.safe s h hm)

theorem startAction (k : Kept P) (w : Fin 16) (a : Action) (s : State) (h : P s) :
    P (Machine.startAction w a s) := by
  cases a with
  | set d v => exact k.writeAsReaction d v s h
  | copy d src => exact k.writeAsReaction d _ s h
  | ramp t r => exact k.ramp t r s h
  | lift => exact k.lift s h
  | stop => exact k.stop s h
  | holdHeat => exact k.heatHold s h
  | beacon => exact k.beacon s h
  | report => exact k.report w s h
  | safe => exact k.safeAction s h

theorem completeRun (k : Kept P) (w : Fin 16) (s : State) (h : P s) :
    P (Machine.completeRun w s) := by
  unfold Machine.completeRun
  exact k.raise _ _ _ (k.free _ (k.modifyLevel _ _ _ h))

theorem workRun (k : Kept P) (w : Fin 16) (n : Nat) : ∀ s, P s → P (Machine.workRun n w s) := by
  induction n with
  | zero => intro s h; exact h
  | succ n ih =>
    intro s h
    unfold Machine.workRun
    split
    · exact h
    · split
      · exact k.completeRun w s h
      · rename_i a _
        have h1 := k.publish s _ (k.startAction w a s h)
        dsimp only
        split
        · exact h1
        · exact ih _ (k.modifyLevel _ _ _ h1)

theorem abandonAction (k : Kept P) (s : State) (h : P s) : P (Machine.abandonAction s) := by
  unfold Machine.abandonAction
  split
  · exact k.dropReports _ (k.abandon _ h)
  · exact k.dropReports _ h

theorem suspend (k : Kept P) (s : State) (h : P s) : P (Machine.suspend s) := by
  unfold Machine.suspend
  exact k.publish _ _ (k.free _ (k.abandonAction s h))

theorem vacate (k : Kept P) (s : State) (h : P s) : P (Machine.vacate s) := by
  unfold Machine.vacate
  split
  · exact h
  · exact k.suspend s h

end Kept

/-! ## The lock is changed by LOCK and UNLOCK alone -/

@[simp] theorem transmitNext_react (s : State) : (transmitNext s).react = s.react := by
  unfold transmitNext payNotice
  split
  · rfl
  · split
    · rfl
    · split
      · rfl
      · split <;> rfl

theorem offerReport_lock (r : Report) (s : State) :
    (offerReport r s).react.lock = s.react.lock := by
  unfold offerReport
  split
  · simp
  · unfold discardReport
    dsimp only
    split <;> rfl

theorem record_lock (k : EventKind) (d : Nat) (s : State) :
    (record k d s).react.lock = s.react.lock := by
  simp only [record, reportEvent, captureFault]
  split <;> split <;> simp [offerReport_lock]

theorem handToOutput_react (old : State) (a : Option (Fin 16)) (s : State) (n : Fin 5) :
    (handToOutput old a s n).react = s.react := by
  unfold handToOutput
  split
  · rfl
  · split <;> rfl

theorem settleOutputs_react (old : State) (a : Option (Fin 16)) (n : Nat) :
    ∀ s, (settleOutputs old a n s).react = s.react := by
  induction n with
  | zero => intro s; rfl
  | succ n ih =>
    intro s
    rw [settleOutputs, ih]
    exact foldl_kept (P := fun t => t.react = s.react) (handToOutput old a)
      (fun t m ht => (handToOutput_react old a t m).trans ht) _ s rfl

theorem handToWatch_lock (old new : State) (a : Option (Fin 16)) (s : State) (w : Fin 16) :
    (handToWatch old new a s w).react.lock = s.react.lock := by
  unfold handToWatch judgeWatch
  split
  · rfl
  · split
    · dsimp only; split <;> rfl
    · rfl

theorem publishArrival_lock (a : Option (Fin 16)) (old new : State) :
    (publishArrival a old new).react.lock = new.react.lock := by
  unfold publishArrival
  generalize List.finRange 16 = l
  exact foldl_kept (P := fun t => t.react.lock = new.react.lock)
    (handToWatch old (settleOutputs old a 5 new) a)
    (fun t w ht => (handToWatch_lock old _ a t w).trans ht) l _
    (by rw [settleOutputs_react])

theorem abandonAction_lock (s : State) : (abandonAction s).react.lock = s.react.lock := by
  unfold abandonAction abandonRamp
  split
  · split <;> rfl
  · rfl

theorem suspend_lock (s : State) : (suspend s).react.lock = s.react.lock := by
  unfold suspend publish
  rw [publishArrival_lock]
  exact abandonAction_lock s

theorem vacate_lock (s : State) : (vacate s).react.lock = s.react.lock := by
  unfold vacate
  split
  · rfl
  · exact suspend_lock s

theorem auctionWinner_candidate {s : State} {w : Fin 16} (h : auctionWinner s = some w) :
    isCandidate s w = true := List.find?_some h

theorem isCandidate_locked {s : State} {w : Fin 16} (h : isCandidate s w = true)
    (hl : s.react.lock = true) : w.val = 0 := by
  simp only [isCandidate, hl, Bool.not_true, Bool.false_or, Bool.and_eq_true, beq_iff_eq] at h
  exact h.2

namespace Kept

variable {P : State → Prop}

theorem award (k : Kept P) (w : Fin 16) (s : State) (h : P s)
    (hl : s.react.lock = true → w.val = 0) : P (Machine.award w s) := by
  unfold Machine.award
  exact k.hold w _ (k.modifyLevel _ _ _ h) hl

theorem holdAuctions (k : Kept P) (n : Nat) : ∀ s, P s → P (Machine.holdAuctions n s) := by
  induction n with
  | zero => intro s h; exact h
  | succ n ih =>
    intro s h
    unfold Machine.holdAuctions
    split
    · exact h
    · rename_i w hw
      split
      · refine ih _ (k.workRun w _ _ (k.award w _ (k.vacate s h) ?_))
        intro hl
        rw [vacate_lock] at hl
        exact isCandidate_locked (auctionWinner_candidate hw) hl
      · exact h

theorem auction (k : Kept P) (s : State) (h : P s) : P (Machine.auction s) := by
  unfold Machine.auction
  exact k.holdAuctions _ s h

theorem recordFirst (k : Kept P) (e : EventKind) (d : Nat) (s : State) (h : P s) :
    P (Machine.recordFirst e d s) := by
  unfold Machine.recordFirst
  exact k.deferred _ _ (k.raise _ _ _ (k.deferred _ _ h))

theorem takeOffer (k : Kept P) (d : Deferred) (s : State) (h : P s) :
    P (Machine.takeOffer d s) := by
  cases d with
  | trip w => exact k.recordFirst _ _ _ (k.auction _ (k.setPending _ _ _ h))
  | toRaise e d => exact k.recordFirst e d s h
  | occurrence e d => exact k.auction _ (k.setPending _ _ _ h)
  | actionDone a =>
    simp only [Machine.takeOffer, takeActionDone]
    split
    · split
      · exact k.auction _ (k.workRun _ _ _ (k.modifyLevel _ _ _ h))
      · exact h
    · exact h

theorem takeOffers (k : Kept P) (n : Nat) : ∀ s, P s → P (Machine.takeOffers n s) := by
  induction n with
  | zero => intro s h; exact h
  | succ n ih =>
    intro s h
    unfold Machine.takeOffers
    split
    · exact h
    · exact ih _ (k.takeOffer _ _ (k.deferred _ _ h))

theorem takeOffersUntil (k : Kept P) (seen : State) (n : Nat) :
    ∀ s, P s → P (Machine.takeOffersUntil seen n s) := by
  induction n with
  | zero => intro s h; exact h
  | succ n ih =>
    intro s h
    unfold Machine.takeOffersUntil
    split
    · exact h
    · rename_i d rest _
      have ht := k.takeOffer d _ (k.deferred rest s h)
      dsimp only
      split
      · exact ht
      · exact ih _ ht

theorem takeCascade (k : Kept P) (r : Nat) : ∀ n s, P s → P (Machine.takeCascade r n s) := by
  induction r with
  | zero => intro n s h; exact h
  | succ r ih =>
    intro n s h
    unfold Machine.takeCascade
    have ht := k.takeOffersUntil s n s h
    dsimp only
    split
    · exact ht
    · exact ih _ _ ht

/-- A property that the elementary operations keep is kept by the reaction unit's part of a step. -/
theorem settle (k : Kept P) (s : State) (h : P s) : P (Machine.settle s) := by
  unfold Machine.settle
  have ht := k.takeOffers Config.offersAtOnce s h
  dsimp only
  split
  · exact ht
  · exact k.takeCascade _ _ _ ht

theorem commit (k : Kept P) (old new : State) (h : P new) : P (Machine.commit old new) :=
  k.settle _ (k.publish old new h)

theorem commitArrival (k : Kept P) (c : Fin 16) (old new : State) (h : P new) :
    P (Machine.commitArrival c old new) :=
  k.settle _ (k.publishArrival _ old new h)

theorem commitAuction (k : Kept P) (old new : State) (h : P new) :
    P (Machine.commitAuction old new) := by
  unfold Machine.commitAuction
  exact k.settle _ (k.auction _ (k.publish old new h))

theorem raiseEvent (k : Kept P) (e : EventKind) (d : Nat) (s : State) (h : P s) :
    P (Machine.raiseEvent e d s) := k.settle _ (k.raise _ _ _ h)

end Kept

end Sys2Proof.Machine
end

