-- ==== Sys2Proof/Laws/Frame.lean ====
section
/-! SUPPORT. The frame of hand-overs and reactions: what `commit` and its kin never touch. -/

namespace Sys2Proof.Machine

theorem Channel.sameMeasured_refl (c : Channel) : c.sameMeasured c :=
  ⟨rfl, rfl, rfl, rfl, rfl, rfl, rfl, rfl, rfl⟩

theorem LineUnit.sameWeb_refl (l : LineUnit) : l.sameWeb l :=
  ⟨rfl, rfl, rfl, rfl, rfl, rfl, rfl, rfl, rfl, rfl⟩

theorem ReactionFrame.refl (s : State) : ReactionFrame s s := by
  constructor <;> first | rfl | exact LineUnit.sameWeb_refl _ | exact fun c => Channel.sameMeasured_refl _

theorem ReactionFrame.trans {s t u : State} (h : ReactionFrame s t) (g : ReactionFrame t u) :
    ReactionFrame s u where
  pins := g.pins.trans h.pins
  web := by
    obtain ⟨a, b, c, d, e, f, i, j, k, l⟩ := h.web
    obtain ⟨a', b', c', d', e', f', i', j', k', l'⟩ := g.web
    exact ⟨a'.trans a, b'.trans b, c'.trans c, d'.trans d, e'.trans e, f'.trans f, i'.trans i,
      j'.trans j, k'.trans k, l'.trans l⟩
  channels := by
    intro ch
    obtain ⟨a, b, c, d, e, f, i, j, k⟩ := h.channels ch
    obtain ⟨a', b', c', d', e', f', i', j', k'⟩ := g.channels ch
    exact ⟨a'.trans a, b'.trans b, c'.trans c, d'.trans d, e'.trans e, f'.trans f, i'.trans i,
      j'.trans j, k'.trans k⟩
  scan := g.scan.trans h.scan
  first := g.first.trans h.first
  last := g.last.trans h.last
  sampleTime := g.sampleTime.trans h.sampleTime
  converting := g.converting.trans h.converting
  lastChannel := g.lastChannel.trans h.lastChannel
  tAbsMax := g.tAbsMax.trans h.tAbsMax
  windowLength := g.windowLength.trans h.windowLength
  profiles := g.profiles.trans h.profiles
  queue := g.queue.trans h.queue
  idCounter := g.idCounter.trans h.idCounter
  history := g.history.trans h.history
  inFlight := g.inFlight.trans h.inFlight
  lock := g.lock.trans h.lock
  mask := g.mask.trans h.mask
  receiver := g.receiver.trans h.receiver
  buffer := g.buffer.trans h.buffer
  restarting := g.restarting.trans h.restarting
  cause := g.cause.trans h.cause
  priorMode := g.priorMode.trans h.priorMode
  storeState := g.storeState.trans h.storeState
  straps := g.straps.trans h.straps
  nvm := g.nvm.trans h.nvm
  pending := g.pending.trans h.pending

/-- Two states that agree outside what a reaction touches, given unit by unit. -/
theorem ReactionFrame.of_units {s t : State} (pins : t.pins = s.pins) (web : s.line.sameWeb t.line)
    (meas : t.meas = s.meas) (tAbsMax : t.loops.tAbsMax = s.loops.tAbsMax)
    (windowLength : t.loops.windowLength = s.loops.windowLength) (profiles : t.profiles = s.profiles)
    (bands : t.bands = s.bands) (engine : t.engine = s.engine) (lock : t.react.lock = s.react.lock)
    (mask : t.events.mask = s.events.mask) (receiver : t.link.receiver = s.link.receiver)
    (buffer : t.link.buffer = s.link.buffer) (restarting : t.link.restarting = s.link.restarting)
    (cause : t.link.cause = s.link.cause) (priorMode : t.link.priorMode = s.link.priorMode)
    (storeState : t.link.storeState = s.link.storeState) (straps : t.link.straps = s.link.straps)
    (nvm : t.nvm = s.nvm) (pending : t.pending = s.pending) : ReactionFrame s t := by
  constructor <;> first | assumption | (intro c; rw [meas]; exact Channel.sameMeasured_refl _) | (rw [meas]) | (rw [bands]) | (rw [engine])

/-! ## The operations of the event unit -/

theorem setFlag_frame (k : EventKind) (s : State) : ReactionFrame s (setFlag k s) := by
  constructor <;> first | rfl | exact ⟨rfl, rfl, rfl, rfl, rfl, rfl, rfl, rfl, rfl, rfl⟩ | exact fun _ => ⟨rfl, rfl, rfl, rfl, rfl, rfl, rfl, rfl, rfl⟩

theorem captureFault_frame (k : EventKind) (d : Nat) (s : State) : ReactionFrame s (captureFault k d s) := by
  unfold captureFault
  split
  · constructor <;> first | rfl | exact ⟨rfl, rfl, rfl, rfl, rfl, rfl, rfl, rfl, rfl, rfl⟩ | exact fun _ => ⟨rfl, rfl, rfl, rfl, rfl, rfl, rfl, rfl, rfl⟩
  · exact .refl s

theorem deferOffer_frame (d : Deferred) (s : State) : ReactionFrame s (deferOffer d s) := by
  constructor <;> first | rfl | exact ⟨rfl, rfl, rfl, rfl, rfl, rfl, rfl, rfl, rfl, rfl⟩ | exact fun _ => ⟨rfl, rfl, rfl, rfl, rfl, rfl, rfl, rfl, rfl⟩

theorem payNotice_frame (s : State) : ReactionFrame s (payNotice s) := by
  unfold payNotice
  split
  · constructor <;> first | rfl | exact ⟨rfl, rfl, rfl, rfl, rfl, rfl, rfl, rfl, rfl, rfl⟩ | exact fun _ => ⟨rfl, rfl, rfl, rfl, rfl, rfl, rfl, rfl, rfl⟩
  · exact .refl s

theorem transmitNext_frame (s : State) : ReactionFrame s (transmitNext s) := by
  unfold transmitNext
  split
  · exact .refl s
  · split
    · constructor <;> first | rfl | exact ⟨rfl, rfl, rfl, rfl, rfl, rfl, rfl, rfl, rfl, rfl⟩ | exact fun _ => ⟨rfl, rfl, rfl, rfl, rfl, rfl, rfl, rfl, rfl⟩
    · split
      · exact .refl s
      · rename_i r rest _
        refine ReactionFrame.trans ?_ (payNotice_frame _)
        constructor <;> first | rfl | exact ⟨rfl, rfl, rfl, rfl, rfl, rfl, rfl, rfl, rfl, rfl⟩ | exact fun _ => ⟨rfl, rfl, rfl, rfl, rfl, rfl, rfl, rfl, rfl⟩

theorem discardReport_frame (s : State) : ReactionFrame s (discardReport s) := by
  unfold discardReport
  dsimp only
  refine ReactionFrame.trans ?_ (deferOffer_frame _ _)
  refine ReactionFrame.trans ?_ (setFlag_frame _ _)
  split <;> (constructor <;> first | rfl | exact ⟨rfl, rfl, rfl, rfl, rfl, rfl, rfl, rfl, rfl, rfl⟩ | exact fun _ => ⟨rfl, rfl, rfl, rfl, rfl, rfl, rfl, rfl, rfl⟩)

theorem offerReport_frame (r : Report) (s : State) : ReactionFrame s (offerReport r s) := by
  unfold offerReport
  split
  · refine ReactionFrame.trans ?_ (transmitNext_frame _)
    constructor <;> first | rfl | exact ⟨rfl, rfl, rfl, rfl, rfl, rfl, rfl, rfl, rfl, rfl⟩ | exact fun _ => ⟨rfl, rfl, rfl, rfl, rfl, rfl, rfl, rfl, rfl⟩
  · exact discardReport_frame s

theorem record_frame (k : EventKind) (d : Nat) (s : State) : ReactionFrame s (record k d s) := by
  unfold record reportEvent
  refine ReactionFrame.trans ?_ (deferOffer_frame _ _)
  refine ReactionFrame.trans ((setFlag_frame k s).trans (captureFault_frame k d _)) ?_
  split
  · exact offerReport_frame _ _
  · exact .refl _

/-! ## The loop unit -/

theorem modifyLoop_frame (k : Fin 10) (f : LoopRec → LoopRec) (s : State) : ReactionFrame s (modifyLoop k f s) := by
  constructor <;> first | rfl | exact ⟨rfl, rfl, rfl, rfl, rfl, rfl, rfl, rfl, rfl, rfl⟩ | exact fun _ => ⟨rfl, rfl, rfl, rfl, rfl, rfl, rfl, rfl, rfl⟩

theorem modifySpan_frame (x : Fin 4) (f : Span → Span) (s : State) : ReactionFrame s (modifySpan x f s) := by
  constructor <;> first | rfl | exact ⟨rfl, rfl, rfl, rfl, rfl, rfl, rfl, rfl, rfl, rfl⟩ | exact fun _ => ⟨rfl, rfl, rfl, rfl, rfl, rfl, rfl, rfl, rfl⟩

theorem modifyOutput_frame (n : Fin 5) (f : AnalogOut → AnalogOut) (s : State) : ReactionFrame s (modifyOutput n f s) := by
  constructor <;> first | rfl | exact ⟨rfl, rfl, rfl, rfl, rfl, rfl, rfl, rfl, rfl, rfl⟩ | exact fun _ => ⟨rfl, rfl, rfl, rfl, rfl, rfl, rfl, rfl, rfl⟩

theorem recomputeOutput_frame (n : Fin 5) (s : State) : ReactionFrame s (recomputeOutput n s) := by
  constructor <;> first | rfl | exact ⟨rfl, rfl, rfl, rfl, rfl, rfl, rfl, rfl, rfl, rfl⟩ | exact fun _ => ⟨rfl, rfl, rfl, rfl, rfl, rfl, rfl, rfl, rfl⟩

theorem takeMode_frame (k : Fin 10) (m : LoopMode) (s : State) : ReactionFrame s (takeMode k m s) := by
  unfold takeMode rearmSpan
  split
  · exact .refl s
  · split
    · exact modifyLoop_frame _ _ s
    · split
      · exact modifyLoop_frame _ _ s
      · exact (modifyLoop_frame _ _ s).trans (modifySpan_frame _ _ _)

theorem refreshLoop_frame (s : State) (k : Fin 10) : ReactionFrame s (refreshLoop s k) := by
  unfold refreshLoop
  dsimp only
  split
  · exact takeMode_frame _ _ s
  · split <;> exact takeMode_frame _ _ s

theorem enforceHold_frame (s : State) : ReactionFrame s (enforceHold s) := by
  constructor <;> first | rfl | exact ⟨rfl, rfl, rfl, rfl, rfl, rfl, rfl, rfl, rfl, rfl⟩ | exact fun _ => ⟨rfl, rfl, rfl, rfl, rfl, rfl, rfl, rfl, rfl⟩

theorem refreshLoops_frame (s : State) : ReactionFrame s (refreshLoops s) := by
  unfold refreshLoops
  refine ReactionFrame.trans ?_ (enforceHold_frame _)
  exact foldl_kept (P := fun t => ReactionFrame s t) refreshLoop
    (fun t k h => h.trans (refreshLoop_frame t k)) _ s (.refl s)

/-! ## The line unit -/

theorem silenceOnMode_frame (o m : LineMode) (s : State) : ReactionFrame s (silenceOnMode o m s) := by
  unfold silenceOnMode
  split
  · constructor <;> first | rfl | exact ⟨rfl, rfl, rfl, rfl, rfl, rfl, rfl, rfl, rfl, rfl⟩ | exact fun _ => ⟨rfl, rfl, rfl, rfl, rfl, rfl, rfl, rfl, rfl⟩
  · split
    · constructor <;> first | rfl | exact ⟨rfl, rfl, rfl, rfl, rfl, rfl, rfl, rfl, rfl, rfl⟩ | exact fun _ => ⟨rfl, rfl, rfl, rfl, rfl, rfl, rfl, rfl, rfl⟩
    · exact .refl s

theorem setMode_frame (m : LineMode) (p : RunPhase) (s : State) : ReactionFrame s (setMode m p s) := by
  unfold setMode
  dsimp only
  refine ReactionFrame.trans ?_ (record_frame _ _ _)
  refine ReactionFrame.trans ?_ (refreshLoops_frame _)
  unfold endDwell
  refine ReactionFrame.trans (t := silenceOnMode s.line.mode m
    { s with line.mode := m, line.phase := p }) ?_ ?_
  · refine ReactionFrame.trans ?_ (silenceOnMode_frame _ _ _)
    constructor <;> first | rfl | exact ⟨rfl, rfl, rfl, rfl, rfl, rfl, rfl, rfl, rfl, rfl⟩ | exact fun _ => ⟨rfl, rfl, rfl, rfl, rfl, rfl, rfl, rfl, rfl⟩
  · constructor <;> first | rfl | exact ⟨rfl, rfl, rfl, rfl, rfl, rfl, rfl, rfl, rfl, rfl⟩ | exact fun _ => ⟨rfl, rfl, rfl, rfl, rfl, rfl, rfl, rfl, rfl⟩

theorem replaceRamp_frame (s : State) : ReactionFrame s (replaceRamp s) := by
  unfold replaceRamp
  split
  · refine ReactionFrame.trans ?_ (deferOffer_frame _ _)
    constructor <;> first | rfl | exact ⟨rfl, rfl, rfl, rfl, rfl, rfl, rfl, rfl, rfl, rfl⟩ | exact fun _ => ⟨rfl, rfl, rfl, rfl, rfl, rfl, rfl, rfl, rfl⟩
  · exact .refl s

theorem setLineTarget_frame (x : Int) (r : RateSource) (s : State) : ReactionFrame s (setLineTarget x r s) := by
  unfold setLineTarget
  refine ReactionFrame.trans (replaceRamp_frame s) ?_
  constructor <;> first | rfl | exact ⟨rfl, rfl, rfl, rfl, rfl, rfl, rfl, rfl, rfl, rfl⟩ | exact fun _ => ⟨rfl, rfl, rfl, rfl, rfl, rfl, rfl, rfl, rfl⟩

theorem checkDwell_frame (s : State) : ReactionFrame s (checkDwell s) := by
  unfold checkDwell
  split
  · split
    · split
      · exact .refl s
      · constructor <;> first | rfl | exact ⟨rfl, rfl, rfl, rfl, rfl, rfl, rfl, rfl, rfl, rfl⟩ | exact fun _ => ⟨rfl, rfl, rfl, rfl, rfl, rfl, rfl, rfl, rfl⟩
    · constructor <;> first | rfl | exact ⟨rfl, rfl, rfl, rfl, rfl, rfl, rfl, rfl, rfl, rfl⟩ | exact fun _ => ⟨rfl, rfl, rfl, rfl, rfl, rfl, rfl, rfl, rfl⟩
  · exact .refl s

theorem refreshHeatSetpoints_frame (s : State) : ReactionFrame s (refreshHeatSetpoints s) := by
  unfold refreshHeatSetpoints
  dsimp only
  split
  · refine ReactionFrame.trans ?_ (checkDwell_frame _)
    constructor <;> first | rfl | exact ⟨rfl, rfl, rfl, rfl, rfl, rfl, rfl, rfl, rfl, rfl⟩ | exact fun _ => ⟨rfl, rfl, rfl, rfl, rfl, rfl, rfl, rfl, rfl⟩
  · constructor <;> first | rfl | exact ⟨rfl, rfl, rfl, rfl, rfl, rfl, rfl, rfl, rfl, rfl⟩ | exact fun _ => ⟨rfl, rfl, rfl, rfl, rfl, rfl, rfl, rfl, rfl⟩

theorem setHeatHold_frame (b : Bool) (s : State) : ReactionFrame s (setHeatHold b s) := by
  unfold setHeatHold
  refine ReactionFrame.trans ?_ (refreshHeatSetpoints_frame _)
  constructor <;> first | rfl | exact ⟨rfl, rfl, rfl, rfl, rfl, rfl, rfl, rfl, rfl, rfl⟩ | exact fun _ => ⟨rfl, rfl, rfl, rfl, rfl, rfl, rfl, rfl, rfl⟩

theorem nipOff_frame (s : State) : ReactionFrame s (nipOff s) := by
  unfold nipOff
  split
  · constructor <;> first | rfl | exact ⟨rfl, rfl, rfl, rfl, rfl, rfl, rfl, rfl, rfl, rfl⟩ | exact fun _ => ⟨rfl, rfl, rfl, rfl, rfl, rfl, rfl, rfl, rfl⟩
  · exact .refl s

theorem liftDone_frame (s : State) : ReactionFrame s (liftDone s) := by
  unfold liftDone
  split
  · exact deferOffer_frame _ s
  · exact .refl s

theorem stoppingComplete_frame (s : State) : ReactionFrame s (stoppingComplete s) := by
  unfold stoppingComplete
  dsimp only
  have h : ReactionFrame s (setMode .ready .noPhase { s with line.feed := false }) := by
    refine ReactionFrame.trans ?_ (setMode_frame _ _ _)
    constructor <;> first | rfl | exact ⟨rfl, rfl, rfl, rfl, rfl, rfl, rfl, rfl, rfl, rfl⟩ | exact fun _ => ⟨rfl, rfl, rfl, rfl, rfl, rfl, rfl, rfl, rfl⟩
  split
  · exact h.trans (nipOff_frame _)
  · exact h

theorem stopLine_frame (s : State) : ReactionFrame s (stopLine s) := by
  unfold stopLine beginStop endStop
  split
  · have h := (setMode_frame .stopping .noPhase s).trans (setLineTarget_frame 0 .stopRate _)
    split
    · exact h.trans (stoppingComplete_frame _)
    · exact h
  · exact .refl s

theorem rampPhase_frame (s : State) : ReactionFrame s (rampPhase s) := by
  constructor <;> first | rfl | exact ⟨rfl, rfl, rfl, rfl, rfl, rfl, rfl, rfl, rfl, rfl⟩ | exact fun _ => ⟨rfl, rfl, rfl, rfl, rfl, rfl, rfl, rfl, rfl⟩

theorem startRamp_frame (x r : Int) (s : State) : ReactionFrame s (startRamp x r s) := by
  unfold startRamp
  dsimp only
  split
  · split
    · refine ReactionFrame.trans ?_ (rampPhase_frame _)
      constructor <;> first | rfl | exact ⟨rfl, rfl, rfl, rfl, rfl, rfl, rfl, rfl, rfl, rfl⟩ | exact fun _ => ⟨rfl, rfl, rfl, rfl, rfl, rfl, rfl, rfl, rfl⟩
    · constructor <;> first | rfl | exact ⟨rfl, rfl, rfl, rfl, rfl, rfl, rfl, rfl, rfl, rfl⟩ | exact fun _ => ⟨rfl, rfl, rfl, rfl, rfl, rfl, rfl, rfl, rfl⟩
  · exact .refl s

theorem abandonRamp_frame (s : State) : ReactionFrame s (abandonRamp s) := by
  unfold abandonRamp
  split
  · constructor <;> first | rfl | exact ⟨rfl, rfl, rfl, rfl, rfl, rfl, rfl, rfl, rfl, rfl⟩ | exact fun _ => ⟨rfl, rfl, rfl, rfl, rfl, rfl, rfl, rfl, rfl⟩
  · exact .refl s

theorem liftNip_frame (s : State) : ReactionFrame s (liftNip s) := by
  unfold liftNip
  dsimp only
  split
  · refine ReactionFrame.trans ?_ (setMode_frame _ _ _)
    refine ReactionFrame.trans ?_ (setLineTarget_frame _ _ _)
    refine ReactionFrame.trans (nipOff_frame s) ?_
    constructor <;> first | rfl | exact ⟨rfl, rfl, rfl, rfl, rfl, rfl, rfl, rfl, rfl, rfl⟩ | exact fun _ => ⟨rfl, rfl, rfl, rfl, rfl, rfl, rfl, rfl, rfl⟩
  · exact nipOff_frame s

theorem safeLine_frame (s : State) : ReactionFrame s (safeLine s) := by
  unfold safeLine
  dsimp only
  refine ReactionFrame.trans ?_ (nipOff_frame _)
  refine ReactionFrame.trans ?_ (setMode_frame _ _ _)
  refine ReactionFrame.trans (replaceRamp_frame s) ?_
  constructor <;> first | rfl | exact ⟨rfl, rfl, rfl, rfl, rfl, rfl, rfl, rfl, rfl, rfl⟩ | exact fun _ => ⟨rfl, rfl, rfl, rfl, rfl, rfl, rfl, rfl, rfl⟩

/-! ## Writes of SETTING points -/

theorem raiseLimits_frame (s : State) : ReactionFrame s (raiseLimits s) := by
  unfold raiseLimits
  split
  · exact .refl s
  · constructor <;> first | rfl | exact ⟨rfl, rfl, rfl, rfl, rfl, rfl, rfl, rfl, rfl, rfl⟩ | exact fun _ => ⟨rfl, rfl, rfl, rfl, rfl, rfl, rfl, rfl, rfl⟩

theorem modifyChannel_frame (c : Fin 16) (f : Channel → Channel) (s : State)
    (h : (s.meas.channels[c]).sameMeasured (f s.meas.channels[c])) :
    ReactionFrame s (modifyChannel c f s) := by
  constructor <;> first | rfl | exact ⟨rfl, rfl, rfl, rfl, rfl, rfl, rfl, rfl, rfl, rfl⟩ | skip
  intro d
  by_cases hd : d = c
  · subst hd
    simpa [modifyChannel] using h
  · have hv : d.val ≠ c.val := fun e => hd (Fin.ext e)
    have e : (modifyChannel c f s).meas.channels[d] = s.meas.channels[d] := by
      simp [modifyChannel, upd_getElem, hv]
    rw [e]
    exact Channel.sameMeasured_refl _

/-- A plain write of a point that is no GUARDED setting. -/
theorem storePlain_frame (p : Point) (v : Int) (s : State) (hp : p.cls = .setting) :
    ReactionFrame s (storePlain p v s) := by
  cases p
  case standbyTemp =>
    simp only [storePlain]
    split
    · refine ReactionFrame.trans ?_ (refreshHeatSetpoints_frame _)
      constructor <;> first | rfl | exact ⟨rfl, rfl, rfl, rfl, rfl, rfl, rfl, rfl, rfl, rfl⟩ | exact fun _ => ⟨rfl, rfl, rfl, rfl, rfl, rfl, rfl, rfl, rfl⟩
    · constructor <;> first | rfl | exact ⟨rfl, rfl, rfl, rfl, rfl, rfl, rfl, rfl, rfl, rfl⟩ | exact fun _ => ⟨rfl, rfl, rfl, rfl, rfl, rfl, rfl, rfl, rfl⟩
  case overheatMargin =>
    refine ReactionFrame.trans ?_ (raiseLimits_frame _)
    constructor <;> first | rfl | exact ⟨rfl, rfl, rfl, rfl, rfl, rfl, rfl, rfl, rfl, rfl⟩ | exact fun _ => ⟨rfl, rfl, rfl, rfl, rfl, rfl, rfl, rfl, rfl⟩
  case trim c =>
    simp only [storePlain]
    exact modifyChannel_frame _ _ s ⟨rfl, rfl, rfl, rfl, rfl, rfl, rfl, rfl, rfl⟩
  case scale c =>
    simp only [storePlain]
    exact modifyChannel_frame _ _ s ⟨rfl, rfl, rfl, rfl, rfl, rfl, rfl, rfl, rfl⟩
  case offset c =>
    simp only [storePlain]
    exact modifyChannel_frame _ _ s ⟨rfl, rfl, rfl, rfl, rfl, rfl, rfl, rfl, rfl⟩
  case avgN c =>
    simp only [storePlain]
    exact modifyChannel_frame _ _ s ⟨rfl, rfl, rfl, rfl, rfl, rfl, rfl, rfl, rfl⟩
  case avgWindow c =>
    simp only [storePlain]
    exact modifyChannel_frame _ _ s ⟨rfl, rfl, rfl, rfl, rfl, rfl, rfl, rfl, rfl⟩
  case captureBand c =>
    simp only [storePlain]
    exact modifyChannel_frame _ _ s ⟨rfl, rfl, rfl, rfl, rfl, rfl, rfl, rfl, rfl⟩
  case motionBand c =>
    simp only [storePlain]
    exact modifyChannel_frame _ _ s ⟨rfl, rfl, rfl, rfl, rfl, rfl, rfl, rfl, rfl⟩
  case aperture c =>
    simp only [storePlain]
    exact modifyChannel_frame _ _ s ⟨rfl, rfl, rfl, rfl, rfl, rfl, rfl, rfl, rfl⟩
  all_goals first
    | (constructor <;> first | rfl | exact ⟨rfl, rfl, rfl, rfl, rfl, rfl, rfl, rfl, rfl, rfl⟩ | exact fun _ => ⟨rfl, rfl, rfl, rfl, rfl, rfl, rfl, rfl, rfl⟩)
    | (simp [Point.cls] at hp)

theorem writeLoopMode_frame (k : Fin 10) (v : Int) (s : State) :
    ReactionFrame s (writeLoopMode k v s).state := by
  unfold writeLoopMode
  dsimp only
  split
  · exact ((modifyLoop_frame _ _ s).trans (refreshLoop_frame _ _)).trans (enforceHold_frame _)
  · split
    · exact ((modifyLoop_frame _ _ s).trans (refreshLoop_frame _ _)).trans (enforceHold_frame _)
    · exact .refl s

theorem writeLinkSilence_frame (v : Int) (s : State) :
    ReactionFrame s (writeLinkSilence v s).state := by
  unfold writeLinkSilence silenceOnWrite
  dsimp only
  split
  · constructor <;> first | rfl | exact ⟨rfl, rfl, rfl, rfl, rfl, rfl, rfl, rfl, rfl, rfl⟩ | exact fun _ => ⟨rfl, rfl, rfl, rfl, rfl, rfl, rfl, rfl, rfl⟩
  · split <;> (constructor <;> first | rfl | exact ⟨rfl, rfl, rfl, rfl, rfl, rfl, rfl, rfl, rfl, rfl⟩ | exact fun _ => ⟨rfl, rfl, rfl, rfl, rfl, rfl, rfl, rfl, rfl⟩)

/-- A write of a SETTING point, by the line computer or by a reaction. -/
theorem settingWrite_frame (p : Point) (v : Int) (s : State) (hp : p.cls = .setting) :
    ReactionFrame s (settingWrite p v s).state := by
  unfold settingWrite
  split
  · exact writeLinkSilence_frame v s
  · unfold writeHeaterWindow
    constructor <;> first | rfl | exact ⟨rfl, rfl, rfl, rfl, rfl, rfl, rfl, rfl, rfl, rfl⟩ | exact fun _ => ⟨rfl, rfl, rfl, rfl, rfl, rfl, rfl, rfl, rfl⟩
  · unfold writeOutMin
    dsimp only
    exact modifyLoop_frame _ _ s
  · unfold writeOutMax
    dsimp only
    exact modifyLoop_frame _ _ s
  · unfold writeLoopOutput
    dsimp only
    split
    · dsimp only
      exact modifyLoop_frame _ _ s
    · exact .refl s
  · exact writeLoopMode_frame _ v s
  · unfold writeOutSource
    split
    · exact .refl s
    · exact (modifyOutput_frame _ _ s).trans (recomputeOutput_frame _ _)
  · exact storePlain_frame _ _ s hp

/-! ## The reaction unit -/

/-- Everything a reaction does keeps the frame. -/
theorem reactionFrame_kept (s : State) : Kept (ReactionFrame s) where
  output n t h := h.trans (recomputeOutput_frame n t)
  watch w f t h := h.trans (by constructor <;> first | rfl | exact ⟨rfl, rfl, rfl, rfl, rfl, rfl, rfl, rfl, rfl, rfl⟩ | exact fun _ => ⟨rfl, rfl, rfl, rfl, rfl, rfl, rfl, rfl, rfl⟩)
  levels v t h := h.trans (by constructor <;> first | rfl | exact ⟨rfl, rfl, rfl, rfl, rfl, rfl, rfl, rfl, rfl, rfl⟩ | exact fun _ => ⟨rfl, rfl, rfl, rfl, rfl, rfl, rfl, rfl, rfl⟩)
  deferred ds t h := h.trans (by constructor <;> first | rfl | exact ⟨rfl, rfl, rfl, rfl, rfl, rfl, rfl, rfl, rfl, rfl⟩ | exact fun _ => ⟨rfl, rfl, rfl, rfl, rfl, rfl, rfl, rfl, rfl⟩)
  free t h := h.trans (by constructor <;> first | rfl | exact ⟨rfl, rfl, rfl, rfl, rfl, rfl, rfl, rfl, rfl, rfl⟩ | exact fun _ => ⟨rfl, rfl, rfl, rfl, rfl, rfl, rfl, rfl, rfl⟩)
  hold w t h _ := h.trans (by constructor <;> first | rfl | exact ⟨rfl, rfl, rfl, rfl, rfl, rfl, rfl, rfl, rfl, rfl⟩ | exact fun _ => ⟨rfl, rfl, rfl, rfl, rfl, rfl, rfl, rfl, rfl⟩)
  raise k d t h := h.trans (record_frame k d t)
  write p v t h hp := h.trans (settingWrite_frame p v t hp)
  ramp x r t h := h.trans (startRamp_frame x r t)
  abandon t h := h.trans (abandonRamp_frame t)
  lift t h := h.trans (liftNip_frame t)
  stop t h := h.trans (stopLine_frame t)
  heatHold t h := h.trans (setHeatHold_frame true t)
  beacon t h := h.trans (by constructor <;> first | rfl | exact ⟨rfl, rfl, rfl, rfl, rfl, rfl, rfl, rfl, rfl, rfl⟩ | exact fun _ => ⟨rfl, rfl, rfl, rfl, rfl, rfl, rfl, rfl, rfl⟩)
  report w t h := h.trans (offerReport_frame _ t)
  safe t h _ := h.trans (safeLine_frame t)

theorem settle_frame (s : State) : ReactionFrame s (settle s) :=
  (reactionFrame_kept s).settle s (.refl s)

theorem publish_frame (old new : State) : ReactionFrame new (publish old new) :=
  (reactionFrame_kept new).publish old new (.refl new)

theorem auction_frame (s : State) : ReactionFrame s (auction s) :=
  (reactionFrame_kept s).auction s (.refl s)

theorem suspend_frame (s : State) : ReactionFrame s (suspend s) :=
  (reactionFrame_kept s).suspend s (.refl s)

theorem abandonAction_frame (s : State) : ReactionFrame s (abandonAction s) :=
  (reactionFrame_kept s).abandonAction s (.refl s)

/-- What the hand-over of an event and the reactions to it leave as the event left it. -/
theorem commit_frame (old new : State) : ReactionFrame new (commit old new) :=
  (reactionFrame_kept new).commit old new (.refl new)

theorem commitArrival_frame (c : Fin 16) (old new : State) :
    ReactionFrame new (commitArrival c old new) :=
  (reactionFrame_kept new).commitArrival c old new (.refl new)

theorem commitAuction_frame (old new : State) : ReactionFrame new (commitAuction old new) :=
  (reactionFrame_kept new).commitAuction old new (.refl new)

theorem raiseEvent_frame (k : EventKind) (d : Nat) (s : State) :
    ReactionFrame s (raiseEvent k d s) :=
  (reactionFrame_kept s).raiseEvent k d s (.refl s)

/-! ## The line unit's own operations -/

theorem nipField_frame (n : NipState) (s : State) : ReactionFrame s { s with line.nip := n } := by
  apply ReactionFrame.of_units <;> first | rfl | exact ⟨rfl, rfl, rfl, rfl, rfl, rfl, rfl, rfl, rfl, rfl⟩

theorem feedField_frame (b : Bool) (s : State) : ReactionFrame s { s with line.feed := b } := by
  apply ReactionFrame.of_units <;> first | rfl | exact ⟨rfl, rfl, rfl, rfl, rfl, rfl, rfl, rfl, rfl, rfl⟩

theorem beaconField_frame (b : Bool) (s : State) : ReactionFrame s { s with line.beacon := b } := by
  apply ReactionFrame.of_units <;> first | rfl | exact ⟨rfl, rfl, rfl, rfl, rfl, rfl, rfl, rfl, rfl, rfl⟩

theorem phaseField_frame (p : RunPhase) (s : State) : ReactionFrame s { s with line.phase := p } := by
  apply ReactionFrame.of_units <;> first | rfl | exact ⟨rfl, rfl, rfl, rfl, rfl, rfl, rfl, rfl, rfl, rfl⟩

theorem referenceField_frame (v : Int) (s : State) :
    ReactionFrame s { s with line.reference := v } := by
  apply ReactionFrame.of_units <;> first | rfl | exact ⟨rfl, rfl, rfl, rfl, rfl, rfl, rfl, rfl, rfl, rfl⟩

theorem engageComplete_frame (s : State) : ReactionFrame s (engageComplete s) := by
  unfold engageComplete
  split
  · exact (setLineTarget_frame ..).trans (rampPhase_frame _)
  · exact .refl _

theorem nipOn_frame (s : State) : ReactionFrame s (nipOn s) := by
  unfold nipOn
  split
  · split
    · exact (nipField_frame _ s).trans (engageComplete_frame _)
    · exact nipField_frame _ s
  · dsimp only
    split
    · exact (liftDone_frame s).trans ((nipField_frame _ _).trans (engageComplete_frame _))
    · exact (liftDone_frame s).trans (nipField_frame _ _)
  · exact engageComplete_frame _
  · exact .refl _
  · exact nipField_frame _ s

theorem ownedRampReached_frame (s : State) : ReactionFrame s (ownedRampReached s) := by
  unfold ownedRampReached
  split
  · refine ReactionFrame.trans ?_ (deferOffer_frame _ _)
    apply ReactionFrame.of_units <;> first | rfl | exact ⟨rfl, rfl, rfl, rfl, rfl, rfl, rfl, rfl, rfl, rfl⟩
  · exact .refl _

theorem targetReached_frame (s : State) : ReactionFrame s (targetReached s) := by
  unfold targetReached
  dsimp only
  split
  · split
    · exact (ownedRampReached_frame s).trans (phaseField_frame _ _)
    · exact ownedRampReached_frame s
  · split
    · exact (ownedRampReached_frame s).trans (stoppingComplete_frame _)
    · exact ownedRampReached_frame s
  all_goals exact ownedRampReached_frame s

theorem stepReference_frame (s : State) : ReactionFrame s (stepReference s) := by
  unfold stepReference
  split
  · exact .refl s
  · dsimp only
    have h : ReactionFrame s (refreshLoops { s with line.reference := steppedReference s.line }) :=
      (referenceField_frame _ s).trans (refreshLoops_frame _)
    split
    · exact h.trans (targetReached_frame _)
    · exact h

theorem failedEngage_frame (s : State) : ReactionFrame s (failedEngage s) := by
  unfold failedEngage
  split
  · exact (feedField_frame false s).trans ((setLineTarget_frame _ _ _).trans (setMode_frame _ _ _))
  · exact .refl s

theorem beginStop_frame (s : State) : ReactionFrame s (beginStop s) :=
  (setMode_frame ..).trans (setLineTarget_frame ..)

theorem endStop_frame (s : State) : ReactionFrame s (endStop s) := by
  unfold endStop
  split
  · exact stoppingComplete_frame s
  · exact .refl s

theorem feedbackActive_frame (s : State) : ReactionFrame s (feedbackActive s) := by
  unfold feedbackActive
  split
  · exact (nipField_frame _ _).trans (engageComplete_frame _)
  · exact nipField_frame _ _
  all_goals exact .refl s

theorem nipLotAtLine_frame (old new : Option Lot) (s : State) :
    ReactionFrame s (nipLotAtLine old new s) := by
  unfold nipLotAtLine
  dsimp only
  split
  · exact .refl s
  · split
    · exact (setLineTarget_frame ..).trans (rampPhase_frame _)
    · exact .refl s

theorem startHeat_frame (s : State) : ReactionFrame s (startHeat s) :=
  (setHeatHold_frame ..).trans (setMode_frame ..)

theorem startCool_frame (s : State) : ReactionFrame s (startCool s) := by
  unfold startCool
  exact (setMode_frame ..).trans
    ((setHeatHold_frame ..).trans ((feedField_frame _ _).trans (nipOff_frame _)))

theorem startRun_frame (s : State) : ReactionFrame s (startRun s) := by
  unfold startRun
  exact (setMode_frame ..).trans
    ((setHeatHold_frame ..).trans ((feedField_frame _ _).trans (nipOn_frame _)))

theorem startThread_frame (s : State) : ReactionFrame s (startThread s) := by
  unfold startThread
  exact (setMode_frame ..).trans
    ((nipOff_frame _).trans ((feedField_frame _ _).trans (setLineTarget_frame ..)))

end Sys2Proof.Machine
end

