-- ==== Sys2Proof/Laws/Line.lean ====
section
/-! SUPPORT. What the shared operations of the line unit do: raising an occurrence, a change of line
mode with the loops that follow it, a target, the nip turned off, and the heat hold. One lemma says all
that an operation does to the units that a statement about a line command names. -/

set_option maxRecDepth 4000

namespace Sys2Proof.Machine

/-! ## Occurrences -/

theorem hasKind_or_bit (k : EventKind) (set : BitVec 23) : hasKind (set ||| k.bit) k = true := by
  simp only [hasKind, BitVec.getLsbD_or]; cases k <;> simp [EventKind.bit, EventKind.code]

/-- The transmitter takes a frame: only the link and the report queue move. -/
theorem transmitNext_units (s : State) : let t := transmitNext s
    t.line = s.line ∧ t.meas = s.meas ∧ t.bands = s.bands ∧ t.engine = s.engine ∧ t.loops = s.loops ∧
      t.react = s.react ∧ t.user = s.user ∧ t.events.set = s.events.set ∧
      t.link.silence = s.link.silence ∧ t.link.silenceArmed = s.link.silenceArmed := by
  unfold transmitNext payNotice; split; simp; split; simp; split; simp; split <;> simp

/-- A report offered leaves every unit but the events, the link and the deferred offers. -/
theorem offerReport_units (r : Report) (s : State) : let t := offerReport r s
    t.line = s.line ∧ t.meas = s.meas ∧ t.bands = s.bands ∧ t.engine = s.engine ∧ t.loops = s.loops ∧
      t.user = s.user ∧ t.react.watches = s.react.watches ∧ t.react.levels = s.react.levels ∧
      t.react.executor = s.react.executor ∧ t.link.silence = s.link.silence ∧
      t.link.silenceArmed = s.link.silenceArmed ∧
      (∀ k, hasKind s.events.set k = true → hasKind t.events.set k = true) := by
  unfold offerReport; dsimp only; split
  · obtain ⟨a, b, c, d, e, f, g, h, i, j⟩ :=
      transmitNext_units { s with events.reports := s.events.reports ++ [r] }
    rw [a, b, c, d, e, f, g, h, i, j]; simp
  · unfold discardReport deferOffer setFlag; dsimp only
    split <;> refine ⟨rfl, rfl, rfl, rfl, rfl, rfl, rfl, rfl, rfl, rfl, rfl, ?_⟩ <;> intro k hk <;>
      simp only [hasKind, BitVec.getLsbD_or] at * <;> simp [hk]

/-- R182: an occurrence sets its flag and leaves every unit but the events, the link's transmitter and
the deferred offers. -/
theorem record_units (k : EventKind) (d : Nat) (s : State) : let t := record k d s
    t.line = s.line ∧ t.meas = s.meas ∧ t.bands = s.bands ∧ t.engine = s.engine ∧ t.loops = s.loops ∧
      t.user = s.user ∧ t.react.watches = s.react.watches ∧ t.react.levels = s.react.levels ∧
      t.react.executor = s.react.executor ∧ t.link.silence = s.link.silence ∧
      t.link.silenceArmed = s.link.silenceArmed ∧ hasKind t.events.set k = true := by
  have h0 : let t := captureFault k d (setFlag k s)
      t.line = s.line ∧ t.meas = s.meas ∧ t.bands = s.bands ∧ t.engine = s.engine ∧
        t.loops = s.loops ∧ t.user = s.user ∧ t.react = s.react ∧ t.link = s.link ∧
        t.events.set = s.events.set ||| k.bit := by
    unfold captureFault setFlag; dsimp only; split <;> simp
  obtain ⟨a, b, c, e, f, g, h, i, j⟩ := h0
  unfold record deferOffer reportEvent; dsimp only
  split
  · obtain ⟨a1, b1, c1, d1, e1, f1, g1, h1, i1, j1, k1, l1⟩ :=
      offerReport_units (.event k d (captureFault k d (setFlag k s)).line.position)
        (captureFault k d (setFlag k s))
    refine ⟨a1.trans a, b1.trans b, c1.trans c, d1.trans e, e1.trans f, f1.trans g, ?_, ?_, ?_, ?_, ?_,
      l1 _ (by rw [j]; exact hasKind_or_bit ..)⟩
    · exact g1.trans (by rw [h])
    · exact h1.trans (by rw [h])
    · exact i1.trans (by rw [h])
    · exact j1.trans (by rw [i])
    · exact k1.trans (by rw [i])
  · refine ⟨a, b, c, e, f, g, ?_, ?_, ?_, ?_, ?_, by rw [j]; exact hasKind_or_bit ..⟩
    all_goals first | rw [h] | rw [i]

/-! ## The frame of the line unit -/

theorem LineFrame.refl (s : State) : LineFrame s s :=
  ⟨.refl s, rfl, rfl, rfl, rfl, rfl, rfl, rfl, rfl⟩

theorem LineFrame.trans {s t u : State} (h : LineFrame s t) (g : LineFrame t u) : LineFrame s u :=
  ⟨h.toReactionFrame.trans g.toReactionFrame, g.meas.trans h.meas, g.bands.trans h.bands,
    g.engine.trans h.engine, g.outputs.trans h.outputs, g.watches.trans h.watches,
    g.levels.trans h.levels, g.executor.trans h.executor, g.user.trans h.user⟩

theorem LineFrame.of_units {s t : State} (h : ReactionFrame s t)
    (a : t.meas = s.meas ∧ t.bands = s.bands ∧ t.engine = s.engine ∧
      t.loops.outputs = s.loops.outputs ∧ t.react.watches = s.react.watches ∧
      t.react.levels = s.react.levels ∧ t.react.executor = s.react.executor ∧ t.user = s.user) :
    LineFrame s t :=
  ⟨h, a.1, a.2.1, a.2.2.1, a.2.2.2.1, a.2.2.2.2.1, a.2.2.2.2.2.1, a.2.2.2.2.2.2.1, a.2.2.2.2.2.2.2⟩

theorem record_lineFrame (k : EventKind) (d : Nat) (s : State) : LineFrame s (record k d s) := by
  obtain ⟨-, b, c, e, f, g, h, i, j, -⟩ := record_units k d s
  exact .of_units (record_frame ..) ⟨b, c, e, by rw [f], h, i, j, g⟩

/-! ## Loop modes -/

/-- R68 to R70: the mode that the base mode, the override and the stale mark give a loop. -/
def settledMode (s : State) (k : Fin 10) : LoopMode :=
  match baseMode s k with
  | .off => .off
  | _ =>
    match (s.loops.loops[k]).override with
    | some o => o
    | none => ownMode k (baseMode s k) (s.loops.loops[k]).stale

theorem settledMode_congr {s t : State} {k : Fin 10} (h : t.line = s.line)
    (g : t.loops.loops[k] = s.loops.loops[k]) : settledMode t k = settledMode s k := by
  unfold settledMode baseMode; rw [h, g]

theorem enterMode_mode (m : LoopMode) (l : LoopRec) : (enterMode m l).mode = m := by cases m <;> rfl

theorem enterMode_setpoint (m : LoopMode) (l : LoopRec) : (enterMode m l).setpoint = l.setpoint := by
  cases m <;> rfl

theorem takeMode_units (k : Fin 10) (m : LoopMode) (s : State) : LineFrame s (takeMode k m s) ∧
    (takeMode k m s).line = s.line ∧ (takeMode k m s).link = s.link ∧
    (takeMode k m s).events = s.events := by
  refine ⟨.of_units (takeMode_frame ..) ?_, ?_⟩ <;>
    (unfold takeMode rearmSpan; split; simp; split; simp; split <;> simp)

theorem takeMode_loop (k : Fin 10) (m : LoopMode) (s : State) (j : Fin 10) :
    (takeMode k m s).loops.loops[j] =
      if j = k then
        (if (s.loops.loops[k]).mode = m then s.loops.loops[k] else enterMode m s.loops.loops[k])
      else s.loops.loops[j] := by
  have e : ∀ v, (rearmSpan k m v).loops.loops = v.loops.loops := by
    intro v; unfold rearmSpan; split; rfl; split <;> rfl
  unfold takeMode; split
  · split
    · rename_i h; subst h; rfl
    · rfl
  · simp only [e]
    simp [modifyLoop, upd, Fin.ext_iff]

theorem takeMode_same (k : Fin 10) (m : LoopMode) (s : State) :
    ((takeMode k m s).loops.loops[k]).mode = m ∧
      ((takeMode k m s).loops.loops[k]).setpoint = (s.loops.loops[k]).setpoint := by
  rw [takeMode_loop, if_pos rfl]; split
  · rename_i h; exact ⟨h, rfl⟩
  · exact ⟨enterMode_mode .., enterMode_setpoint ..⟩

theorem refreshLoop_units (s : State) (k : Fin 10) : LineFrame s (refreshLoop s k) ∧
    (refreshLoop s k).line = s.line ∧ (refreshLoop s k).link = s.link ∧
    (refreshLoop s k).events = s.events := by
  unfold refreshLoop; dsimp only; split
  · exact takeMode_units ..
  · split <;> exact takeMode_units ..

theorem refreshLoop_same (s : State) (k : Fin 10) :
    ((refreshLoop s k).loops.loops[k]).mode = settledMode s k ∧
      ((refreshLoop s k).loops.loops[k]).setpoint = (s.loops.loops[k]).setpoint := by
  unfold refreshLoop settledMode; dsimp only
  cases baseMode s k <;> dsimp only
  · exact takeMode_same ..
  all_goals cases (s.loops.loops[k]).override <;> dsimp only <;> exact takeMode_same ..

theorem refreshLoop_other (s : State) {k j : Fin 10} (h : j ≠ k) :
    (refreshLoop s k).loops.loops[j] = s.loops.loops[j] := by
  unfold refreshLoop; dsimp only; split
  · rw [takeMode_loop, if_neg h]
  · split <;> rw [takeMode_loop, if_neg h]

theorem refreshLoop_foldl_other {k : Fin 10} : ∀ (l : List (Fin 10)) (t : State), k ∉ l →
    (l.foldl refreshLoop t).loops.loops[k] = t.loops.loops[k]
  | [], _, _ => rfl
  | b :: l, t, h => by
    simp only [List.mem_cons, not_or] at h
    rw [List.foldl_cons, refreshLoop_foldl_other l _ h.2, refreshLoop_other _ h.1]

theorem refreshLoop_foldl_mem {s : State} {k : Fin 10} (l : List (Fin 10)) : ∀ t : State,
    t.line = s.line → l.Nodup → t.loops.loops[k] = s.loops.loops[k] → k ∈ l →
    ((l.foldl refreshLoop t).loops.loops[k]).mode = settledMode s k ∧
      ((l.foldl refreshLoop t).loops.loops[k]).setpoint = (s.loops.loops[k]).setpoint := by
  induction l with
  | nil => intro t _ _ _ h; cases h
  | cons a l ih =>
    intro t ht hn hk hm
    obtain ⟨ha, hl⟩ := List.nodup_cons.mp hn
    rw [List.foldl_cons]
    by_cases h : k = a
    · subst h
      have e := refreshLoop_same t k
      rw [refreshLoop_foldl_other l _ ha, e.1, e.2, settledMode_congr ht hk, hk]; exact ⟨rfl, rfl⟩
    · refine ih _ ((refreshLoop_units t a).2.1.trans ht) hl ((refreshLoop_other t h).trans hk) ?_
      simpa [h] using hm

/-- R68 to R70: after a refresh every loop has the mode given to it, with its setpoint as it was. -/
theorem refreshLoops_mode (s : State) (k : Fin 10) :
    ((refreshLoops s).loops.loops[k]).mode = settledMode s k ∧
      ((refreshLoops s).loops.loops[k]).setpoint = (s.loops.loops[k]).setpoint :=
  refreshLoop_foldl_mem (List.finRange 10) s rfl (List.nodup_finRange 10) rfl (List.mem_finRange k)

theorem refreshLoops_units (s : State) : LineFrame s (refreshLoops s) ∧
    (refreshLoops s).line = s.line ∧ (refreshLoops s).link = s.link ∧
    (refreshLoops s).events = s.events := by
  unfold refreshLoops
  have h := foldl_kept
    (P := fun t => LineFrame s t ∧ t.line = s.line ∧ t.link = s.link ∧ t.events = s.events)
    _ (fun t k ht => by
      obtain ⟨a, b, c, d⟩ := refreshLoop_units t k
      exact ⟨ht.1.trans a, b.trans ht.2.1, c.trans ht.2.2.1, d.trans ht.2.2.2⟩)
    (List.finRange 10) s ⟨.refl s, rfl, rfl, rfl⟩
  refine ⟨h.1.trans (.of_units (enforceHold_frame _) ?_), h.2.1, h.2.2.1, h.2.2.2⟩
  exact ⟨rfl, rfl, rfl, rfl, rfl, rfl, rfl, rfl⟩

/-- R74: a zone whose loop a refresh leaves OFF has no active duty, and its pin is off. -/
theorem refreshLoops_zone {s : State} {z : Fin 6} (h : settledMode s (zoneLoop z) = .off) :
    ((refreshLoops s).loops.zones[z]).active = 0 ∧
      ((refreshLoops s).loops.zones[z]).heaterOn = false := by
  have hm := (refreshLoops_mode s (zoneLoop z)).1
  rw [h] at hm
  unfold refreshLoops at hm ⊢
  generalize List.foldl refreshLoop s (List.finRange 10) = v at *
  have hm : (v.loops.loops[zoneLoop z]).mode = .off := hm
  have hh : heldOff v z = true := by unfold heldOff; rw [hm]; rfl
  have e : (enforceHold v).loops.zones[z] = holdZone v z := by simp [enforceHold]
  rw [e]; simp [holdZone, hh]

/-! ## Changes of line mode -/

/-- The fields that a change of mode sets before the loops follow it. -/
theorem modeFields_units (m : LineMode) (p : RunPhase) (s : State) :
    let u := endDwell (silenceOnMode s.line.mode m { s with line.mode := m, line.phase := p })
    LineFrame s u ∧ u.line = { s.line with mode := m, phase := p, dwell := none } ∧
      u.loops = s.loops ∧ u.link.silence = (silenceOnMode s.line.mode m s).link.silence ∧
      u.link.silenceArmed = (silenceOnMode s.line.mode m s).link.silenceArmed := by
  refine ⟨.of_units (.of_units ?_ ?_ ?_ ?_ ?_ ?_ ?_ ?_ ?_ ?_ ?_ ?_ ?_ ?_ ?_ ?_ ?_ ?_ ?_)
      ?_, ?_, ?_, ?_, ?_⟩
  all_goals (unfold endDwell silenceOnMode; dsimp only; split)
  all_goals (try split)
  all_goals first
    | rfl
    | exact ⟨rfl, rfl, rfl, rfl, rfl, rfl, rfl, rfl⟩
    | exact ⟨rfl, rfl, rfl, rfl, rfl, rfl, rfl, rfl, rfl, rfl⟩

/-- R9: a change of line mode sets the mode and the run phase, ends the dwell and raises MODE_CHANGE. -/
theorem setMode_spec (m : LineMode) (p : RunPhase) (s : State) :
    LineFrame s (setMode m p s) ∧
      (setMode m p s).line = { s.line with mode := m, phase := p, dwell := none } ∧
      hasKind (setMode m p s).events.set .modeChange = true := by
  unfold setMode; dsimp only
  obtain ⟨h, l, -⟩ := modeFields_units m p s
  generalize endDwell (silenceOnMode s.line.mode m { s with line.mode := m, line.phase := p }) = u at *
  obtain ⟨a, -, -, -, -, -, -, -, -, -, -, o⟩ := record_units .modeChange m.code (refreshLoops u)
  obtain ⟨x, y, -⟩ := refreshLoops_units u
  exact ⟨h.trans (x.trans (record_lineFrame ..)), by rw [a, y, l], o⟩

/-- R68, R69: every loop takes the mode that the new line mode gives it, with its setpoint as it was. -/
theorem setMode_loop (m : LineMode) (p : RunPhase) (s : State) (k : Fin 10) :
    ((setMode m p s).loops.loops[k]).mode = settledMode { s with line.mode := m } k ∧
      ((setMode m p s).loops.loops[k]).setpoint = (s.loops.loops[k]).setpoint := by
  unfold setMode; dsimp only
  obtain ⟨-, l, g, -⟩ := modeFields_units m p s
  generalize endDwell (silenceOnMode s.line.mode m { s with line.mode := m, line.phase := p }) = u at *
  rw [(record_units .modeChange m.code (refreshLoops u)).2.2.2.2.1]
  obtain ⟨e1, e2⟩ := refreshLoops_mode u k
  rw [e1, e2, g]
  exact ⟨by unfold settledMode baseMode; rw [l, g], rfl⟩

/-- R203: what a change of line mode does to the link-silence timing. -/
theorem setMode_silence (m : LineMode) (p : RunPhase) (s : State) :
    (setMode m p s).link.silence = (silenceOnMode s.line.mode m s).link.silence ∧
      (setMode m p s).link.silenceArmed = (silenceOnMode s.line.mode m s).link.silenceArmed := by
  unfold setMode; dsimp only
  obtain ⟨-, -, -, a, b⟩ := modeFields_units m p s
  generalize endDwell (silenceOnMode s.line.mode m { s with line.mode := m, line.phase := p }) = u at *
  obtain ⟨-, -, -, -, -, -, -, -, -, g, h, -⟩ := record_units .modeChange m.code (refreshLoops u)
  rw [g, h, (refreshLoops_units u).2.2.1]
  exact ⟨a, b⟩

/-- R74: a zone whose loop the new line mode leaves OFF has no active duty, and its pin is off. -/
theorem setMode_zone {m : LineMode} {p : RunPhase} {s : State} {z : Fin 6}
    (h : settledMode { s with line.mode := m } (zoneLoop z) = .off) :
    ((setMode m p s).loops.zones[z]).active = 0 ∧
      ((setMode m p s).loops.zones[z]).heaterOn = false := by
  unfold setMode; dsimp only
  obtain ⟨-, l, g, -⟩ := modeFields_units m p s
  generalize endDwell (silenceOnMode s.line.mode m { s with line.mode := m, line.phase := p }) = u at *
  rw [(record_units .modeChange m.code (refreshLoops u)).2.2.2.2.1]
  refine refreshLoops_zone ?_
  rw [← h]; unfold settledMode baseMode; rw [l, g]

/-! ## Targets, the nip and the heat hold -/

/-- R7, R8: a mode rule's target, clamped, with owner LINE; a ramp in flight is reported complete. -/
theorem setLineTarget_spec (t : Int) (r : RateSource) (s : State) :
    LineFrame s (setLineTarget t r s) ∧
      (setLineTarget t r s).line =
        { s.line with target := clampTo 0 s.line.vMax t, rateSource := r, owner := .line } ∧
      (setLineTarget t r s).events = s.events ∧ (setLineTarget t r s).loops = s.loops ∧
      (setLineTarget t r s).link = s.link := by
  refine ⟨.of_units (setLineTarget_frame ..) ?_, ?_, ?_, ?_, ?_⟩
  all_goals unfold setLineTarget replaceRamp clampTarget deferOffer
  · cases s.line.owner <;> exact ⟨rfl, rfl, rfl, rfl, rfl, rfl, rfl, rfl⟩
  · cases h : s.line.owner <;> simp [← h]
  all_goals cases s.line.owner <;> rfl

/-- R20: turning NIP off moves the nip state alone, and leaves the output off. -/
theorem nipOff_spec (s : State) :
    LineFrame s (nipOff s) ∧ (nipOff s).line = { s.line with nip := (nipOff s).line.nip } ∧
      (nipOff s).events = s.events ∧ (nipOff s).loops = s.loops ∧ (nipOff s).link = s.link ∧
      (nipOff s).line.nip.output = false := by
  refine ⟨.of_units (nipOff_frame ..) ?_, ?_, ?_, ?_, ?_, ?_⟩ <;> (unfold nipOff; split)
  all_goals first | rfl | exact ⟨rfl, rfl, rfl, rfl, rfl, rfl, rfl, rfl⟩ | skip
  · dsimp only; split <;> rfl
  · rename_i h; simpa using h

/-- R11: the dwell check moves the dwell timing alone, in WARMING alone. -/
theorem checkDwell_units (s : State) :
    LineFrame s (checkDwell s) ∧ (s.line.mode ≠ .warming → checkDwell s = s) ∧
      (checkDwell s).loops = s.loops ∧ (checkDwell s).events = s.events ∧
      (checkDwell s).link = s.link := by
  refine ⟨.of_units (checkDwell_frame _) ?_, ?_, ?_, ?_, ?_⟩
  · unfold checkDwell; split
    · split
      · split <;> exact ⟨rfl, rfl, rfl, rfl, rfl, rfl, rfl, rfl⟩
      · exact ⟨rfl, rfl, rfl, rfl, rfl, rfl, rfl, rfl⟩
    · exact ⟨rfl, rfl, rfl, rfl, rfl, rfl, rfl, rfl⟩
  · intro h; unfold checkDwell; rw [if_neg h]
  all_goals unfold checkDwell; split; split; split <;> rfl; rfl; rfl

/-- R11, R66: the heat hold is set, and the heat setpoints follow it; the dwell check that a changed
setpoint brings moves the dwell timing alone, in WARMING alone. -/
theorem setHeatHold_spec (b : Bool) (s : State) :
    LineFrame s (setHeatHold b s) ∧
      (s.line.mode ≠ .warming → (setHeatHold b s).line = { s.line with heatHold := b }) ∧
      (setHeatHold b s).events = s.events ∧ (setHeatHold b s).link = s.link ∧
      (setHeatHold b s).loops.zones = s.loops.zones ∧
      ∀ k : Fin 10,
        ((setHeatHold b s).loops.loops[k]).mode = (s.loops.loops[k]).mode ∧
        ((setHeatHold b s).loops.loops[k]).override = (s.loops.loops[k]).override ∧
        ((setHeatHold b s).loops.loops[k]).stale = (s.loops.loops[k]).stale ∧
        (isHeatLoop k = true →
          ((setHeatHold b s).loops.loops[k]).setpoint =
            setpointOf { s with line.heatHold := b } k) := by
  unfold setHeatHold refreshHeatSetpoints
  dsimp only
  set u : State := { s with
    line.heatHold := b
    loops.loops := tab fun k =>
      if isHeatLoop k then
        { s.loops.loops[k] with setpoint := setpointOf { s with line.heatHold := b } k }
      else s.loops.loops[k] } with hu
  have h0 : LineFrame s u := by
    refine .of_units (.of_units ?_ ?_ ?_ ?_ ?_ ?_ ?_ ?_ ?_ ?_ ?_ ?_ ?_ ?_ ?_ ?_ ?_ ?_ ?_)
      ?_
    all_goals first
      | rfl
      | exact ⟨rfl, rfl, rfl, rfl, rfl, rfl, rfl, rfl⟩
      | exact ⟨rfl, rfl, rfl, rfl, rfl, rfl, rfl, rfl, rfl, rfl⟩
  have hk : ∀ k : Fin 10, (u.loops.loops[k]).mode = (s.loops.loops[k]).mode ∧
      (u.loops.loops[k]).override = (s.loops.loops[k]).override ∧
      (u.loops.loops[k]).stale = (s.loops.loops[k]).stale ∧
      (isHeatLoop k = true →
        (u.loops.loops[k]).setpoint = setpointOf { s with line.heatHold := b } k) := by
    intro k
    have e : u.loops.loops[k] =
        if isHeatLoop k then
          { s.loops.loops[k] with setpoint := setpointOf { s with line.heatHold := b } k }
        else s.loops.loops[k] := by simp [hu]
    rw [e]; split
    · exact ⟨rfl, rfl, rfl, fun _ => rfl⟩
    · rename_i h; exact ⟨rfl, rfl, rfl, fun h' => absurd h' h⟩
  have key : ∀ v, v = u ∨ v = checkDwell u → LineFrame s v ∧
      (s.line.mode ≠ .warming → v.line = { s.line with heatHold := b }) ∧
      v.events = s.events ∧ v.link = s.link ∧ v.loops = u.loops := by
    rintro v (rfl | rfl)
    · exact ⟨h0, fun _ => rfl, rfl, rfl, rfl⟩
    · obtain ⟨a, c, l, d, e⟩ := checkDwell_units u
      exact ⟨h0.trans a, fun h => by rw [c h], d, e, l⟩
  split
  · obtain ⟨a, c, d, e, l⟩ := key _ (.inr rfl)
    refine ⟨a, c, d, e, by rw [l], fun k => ?_⟩
    rw [show (checkDwell u).loops.loops[k] = u.loops.loops[k] by rw [l]]; exact hk k
  · obtain ⟨a, c, d, e, -⟩ := key _ (.inl rfl)
    exact ⟨a, c, d, e, rfl, hk⟩

end Sys2Proof.Machine
end

