-- ==== Sys2Proof/Laws/Request.lean ====
section
/-! SUPPORT. What taking a request does, once for every request: the frame leaves the buffer, the owner
answers, and the reply enters the slot. -/

namespace Sys2Proof.Machine

/-! ## The frame leaves the buffer -/

@[simp] theorem restartSilence_units (s : State) :
    (restartSilence s).pins = s.pins ∧ (restartSilence s).line = s.line ∧
    (restartSilence s).meas = s.meas ∧ (restartSilence s).loops = s.loops ∧
    (restartSilence s).profiles = s.profiles ∧ (restartSilence s).bands = s.bands ∧
    (restartSilence s).engine = s.engine ∧ (restartSilence s).react = s.react ∧
    (restartSilence s).events = s.events ∧ (restartSilence s).nvm = s.nvm ∧
    (restartSilence s).user = s.user ∧ (restartSilence s).pending = s.pending := by
  unfold restartSilence
  split <;> exact ⟨rfl, rfl, rfl, rfl, rfl, rfl, rfl, rfl, rfl, rfl, rfl, rfl⟩

/-- `dequeue` changes the link alone: the buffer, and the silence timing when the buffer was empty. -/
theorem dequeue_units (s : State) :
    (dequeue s).pins = s.pins ∧ (dequeue s).line = s.line ∧ (dequeue s).meas = s.meas ∧
    (dequeue s).loops = s.loops ∧ (dequeue s).profiles = s.profiles ∧ (dequeue s).bands = s.bands ∧
    (dequeue s).engine = s.engine ∧ (dequeue s).react = s.react ∧ (dequeue s).events = s.events ∧
    (dequeue s).nvm = s.nvm ∧ (dequeue s).user = s.user ∧ (dequeue s).pending = s.pending := by
  unfold dequeue
  split
  · exact restartSilence_units s
  · exact ⟨rfl, rfl, rfl, rfl, rfl, rfl, rfl, rfl, rfl, rfl, rfl, rfl⟩

@[simp] theorem dequeue_pins (s : State) : (dequeue s).pins = s.pins := (dequeue_units s).1
@[simp] theorem dequeue_line (s : State) : (dequeue s).line = s.line := (dequeue_units s).2.1
@[simp] theorem dequeue_meas (s : State) : (dequeue s).meas = s.meas := (dequeue_units s).2.2.1
@[simp] theorem dequeue_loops (s : State) : (dequeue s).loops = s.loops := (dequeue_units s).2.2.2.1
@[simp] theorem dequeue_profiles (s : State) : (dequeue s).profiles = s.profiles :=
  (dequeue_units s).2.2.2.2.1
@[simp] theorem dequeue_bands (s : State) : (dequeue s).bands = s.bands := (dequeue_units s).2.2.2.2.2.1
@[simp] theorem dequeue_engine (s : State) : (dequeue s).engine = s.engine :=
  (dequeue_units s).2.2.2.2.2.2.1
@[simp] theorem dequeue_react (s : State) : (dequeue s).react = s.react :=
  (dequeue_units s).2.2.2.2.2.2.2.1
@[simp] theorem dequeue_events (s : State) : (dequeue s).events = s.events :=
  (dequeue_units s).2.2.2.2.2.2.2.2.1
@[simp] theorem dequeue_nvm (s : State) : (dequeue s).nvm = s.nvm :=
  (dequeue_units s).2.2.2.2.2.2.2.2.2.1
@[simp] theorem dequeue_user (s : State) : (dequeue s).user = s.user :=
  (dequeue_units s).2.2.2.2.2.2.2.2.2.2.1
@[simp] theorem dequeue_pending (s : State) : (dequeue s).pending = s.pending :=
  (dequeue_units s).2.2.2.2.2.2.2.2.2.2.2

/-! ## The request is taken -/

/-- A request that can be taken: its owner answers on the state without the frame. -/
theorem takeRequest_taken {f : Frame} (handle : List Byte → State → Answer) {s : State}
    (h : takeable f s = true) :
    takeRequest f handle s =
      putReply (replyFrame f (handle f.payload (dequeue s)).status (handle f.payload (dequeue s)).items)
        (handle f.payload (dequeue s)).state := by
  simp only [takeRequest, h, if_true]

/-- A request that cannot be taken now is received as a valid frame. -/
theorem takeRequest_left {f : Frame} (handle : List Byte → State → Answer) {s : State}
    (h : takeable f s = false) (hr : s.runs = true) : takeRequest f handle s = validFrame f s := by
  simp only [takeRequest, h, hr, Bool.false_eq_true, if_false, if_true]

/-- A request at a part that does not run changes nothing. -/
theorem takeRequest_idle {f : Frame} (handle : List Byte → State → Answer) {s : State}
    (hr : s.runs = false) : takeRequest f handle s = s := by
  simp [takeRequest, takeable, hr]

theorem takeRow_taken {codes own : Nat} {f : Frame} (handle : List Byte → State → Answer) {s : State}
    (hr : selectsRow codes own f.payload = true) (h : takeable f s = true) :
    takeRow codes own f handle s =
      putReply (replyFrame f (handle f.payload (dequeue s)).status (handle f.payload (dequeue s)).items)
        (handle f.payload (dequeue s)).state := by
  simp only [takeRow, hr, if_true, takeRequest_taken handle h]

@[simp] theorem withLength_same (payload : List Byte) (s : State) (a : Answer) :
    withLength payload.length payload s a = a := by
  simp [withLength]

theorem withLength_eq {n : Nat} {payload : List Byte} (h : payload.length = n) (s : State) (a : Answer) :
    withLength n payload s a = a := by
  simp [withLength, h]

theorem withLength_ne {n : Nat} {payload : List Byte} (h : payload.length ≠ n) (s : State) (a : Answer) :
    withLength n payload s a = refuse .length s := by
  simp [withLength, h]

/-! ## The link takes the frames that wait -/

@[simp] theorem serve_nil (s : State) : serve [] s = s := rfl

theorem serve_taken {f : Frame} {s : State} (rest : List Frame) (h : takeable f s = true) :
    serve (f :: rest) s = serve rest (takeFrame f s) := by
  simp only [serve, h, if_true]

theorem serve_left {f : Frame} {s : State} (rest : List Frame) (h : takeable f s = false) :
    serve (f :: rest) s = s := by
  simp only [serve, h, Bool.false_eq_true, if_false]

/-- With no frame in the buffer the link takes none. -/
theorem serveBuffer_empty {s : State} (h : s.link.buffer = []) : serveBuffer s = s := by
  simp only [serveBuffer, h, serve_nil]

theorem takeRow_selected {codes own : Nat} {f : Frame} (handle : List Byte → State → Answer) (s : State)
    (h : selectsRow codes own f.payload = true) :
    takeRow codes own f handle s = takeRequest f handle s := by
  simp only [takeRow, h, if_true]

/-- A command byte selects its row. -/
theorem selectsRow_own {codes own : Nat} {p : List Byte} (h : byteAt p 0 = own) :
    selectsRow codes own p = true := by
  cases p with
  | nil => rfl
  | cons b l =>
    have hb : b.toNat = own := by simpa [byteAt, fieldAt, leValue] using h
    simp [selectsRow, hb]

/-- A payload whose command byte selects no other row goes to the first. -/
theorem selectsRow_first {codes : Nat} {p : List Byte} (h : byteAt p 0 = 0 ∨ codes ≤ byteAt p 0) :
    selectsRow codes 0 p = true := by
  cases p with
  | nil => rfl
  | cons b l =>
    have hb : b.toNat = 0 ∨ codes ≤ b.toNat := by simpa [byteAt, fieldAt, leValue] using h
    simpa [selectsRow] using hb

theorem exec_lineCmdOf (t : Byte) (p : List Byte) (s : State) :
    exec (lineCmdOf t p) s =
      .next (takeRequest ⟨0x04, t, p⟩ (answerOf (lineCmdOf t p)) s) := by
  unfold lineCmdOf
  split
  iterate 5 exact congrArg _ (takeRow_selected _ _ (selectsRow_own ‹_›))
  rename_i h1 h2 h3 h4 h5
  refine congrArg _ (takeRow_selected _ _ (selectsRow_first ?_))
  have hs := And.intro h1 (And.intro h2 (And.intro h3 (And.intro h4 h5)))
  simp only [← ne_eq, imp_false] at hs
  dsimp only; omega

theorem exec_scanCmdOf (t : Byte) (p : List Byte) (s : State) :
    exec (scanCmdOf t p) s =
      .next (takeRequest ⟨0x11, t, p⟩ (answerOf (scanCmdOf t p)) s) := by
  unfold scanCmdOf
  split
  iterate 3 exact congrArg _ (takeRow_selected _ _ (selectsRow_own ‹_›))
  rename_i h1 h2 h3
  refine congrArg _ (takeRow_selected _ _ (selectsRow_first ?_))
  have hs := And.intro h1 (And.intro h2 h3)
  simp only [← ne_eq, imp_false] at hs
  dsimp only; omega

theorem exec_levelCmdOf (t : Byte) (p : List Byte) (s : State) :
    exec (levelCmdOf t p) s =
      .next (takeRequest ⟨0x18, t, p⟩ (answerOf (levelCmdOf t p)) s) := by
  unfold levelCmdOf
  split
  iterate 4 exact congrArg _ (takeRow_selected _ _ (selectsRow_own ‹_›))
  rename_i h1 h2 h3 h4
  refine congrArg _ (takeRow_selected _ _ (selectsRow_first ?_))
  have hs := And.intro h1 (And.intro h2 (And.intro h3 h4))
  simp only [← ne_eq, imp_false] at hs
  dsimp only; omega

/-- The command that a frame is takes it as the link does. -/
theorem exec_requestOf (f : Frame) (s : State) : exec (requestOf f) s = .next (takeFrame f s) := by
  obtain ⟨k, t, p⟩ := f
  unfold takeFrame requestOf
  dsimp only
  split <;> rename_i hk
  all_goals try
    have hb := congrArg (BitVec.ofNat 8) hk
    rw [BitVec.ofNat_toNat, BitVec.setWidth_eq] at hb
    subst hb
  all_goals first
    | rfl
    | exact exec_lineCmdOf t p s
    | exact exec_scanCmdOf t p s
    | exact exec_levelCmdOf t p s
    | skip
  have hu : unknownKind k = true := by
    by_contra hc
    simp only [unknownKind, Bool.or_eq_true, decide_eq_true_eq, not_or, not_lt] at hc
    have hn : ∀ n, 1 ≤ n → n ≤ 31 → k.toNat = n → False := by
      intro n _ _
      interval_cases n <;> assumption
    exact hn _ (Nat.one_le_iff_ne_zero.mpr hc.1) hc.2 rfl
  exact congrArg _ (if_pos hu)

/-! ## The bytes of a payload -/

@[simp] theorem byteAt_zero (b : Byte) (l : List Byte) : byteAt (b :: l) 0 = b.toNat := by
  simp [byteAt, fieldAt, leValue]

@[simp] theorem byteAt_succ (b : Byte) (l : List Byte) (n : Nat) :
    byteAt (b :: l) (n + 1) = byteAt l n := by
  simp [byteAt, fieldAt]

@[simp] theorem wordAt_zero (b c : Byte) (l : List Byte) :
    wordAt (b :: c :: l) 0 = b.toNat + 256 * c.toNat := by
  simp [wordAt, fieldAt, leValue]

@[simp] theorem wordAt_succ (b : Byte) (l : List Byte) (n : Nat) :
    wordAt (b :: l) (n + 1) = wordAt l n := by
  simp [wordAt, fieldAt]

@[simp] theorem longAt_succ (b : Byte) (l : List Byte) (n : Nat) :
    longAt (b :: l) (n + 1) = longAt l n := by
  simp [longAt, fieldAt]

/-! ## The reply -/

@[simp] theorem refuse_state (st : Status) (s : State) : (refuse st s).state = s := rfl
@[simp] theorem refuse_status (st : Status) (s : State) : (refuse st s).status = st := rfl
@[simp] theorem refuse_items (st : Status) (s : State) : (refuse st s).items = [] := rfl
@[simp] theorem readOut_state (items : List Byte) (s : State) : (readOut items s).state = s := rfl
@[simp] theorem readOut_status (items : List Byte) (s : State) : (readOut items s).status = .ok := rfl
@[simp] theorem readOut_items (items : List Byte) (s : State) : (readOut items s).items = items := rfl

@[simp] theorem replyPayload_ok (items : List Byte) : replyPayload .ok items = 0 :: items := rfl
@[simp] theorem replyPayload_clamped (items : List Byte) : replyPayload .clamped items = 1 :: items := rfl
@[simp] theorem replyPayload_unknown (items : List Byte) : replyPayload .unknown items = [2] := rfl
@[simp] theorem replyPayload_length (items : List Byte) : replyPayload .length items = [3] := rfl
@[simp] theorem replyPayload_noSuch (items : List Byte) : replyPayload .noSuch items = [4] := rfl
@[simp] theorem replyPayload_readOnly (items : List Byte) : replyPayload .readOnly items = [5] := rfl
@[simp] theorem replyPayload_mode (items : List Byte) : replyPayload .mode items = [6] := rfl
@[simp] theorem replyPayload_busy (items : List Byte) : replyPayload .busy items = [7] := rfl
@[simp] theorem replyPayload_inUse (items : List Byte) : replyPayload .inUse items = [8] := rfl
@[simp] theorem replyPayload_full (items : List Byte) : replyPayload .full items = [9] := rfl
@[simp] theorem replyPayload_order (items : List Byte) : replyPayload .order items = [10] := rfl
@[simp] theorem replyPayload_range (items : List Byte) : replyPayload .range items = [11] := rfl
@[simp] theorem replyPayload_state (items : List Byte) : replyPayload .state items = [12] := rfl
@[simp] theorem replyPayload_noLot (items : List Byte) : replyPayload .noLot items = [13] := rfl
@[simp] theorem replyPayload_noDose (items : List Byte) : replyPayload .noDose items = [14] := rfl

/-- R199: an idle transmitter takes the reply at once; a busy one leaves it in the slot. -/
theorem putReply_cases (r : Frame) (s : State) :
    (s.link.sending = none →
      putReply r s = { s with link.sending := some r, link.slot := none }) ∧
    (∀ f, s.link.sending = some f → putReply r s = { s with link.slot := some r }) := by
  constructor
  · intro h
    simp [putReply, transmitNext, h]
  · intro f h
    simp [putReply, transmitNext, h]

end Sys2Proof.Machine
end

