-- ==== Sys2Proof/Laws/OwnerKept.lean ====
section
/-! SUPPORT. What the owner of a request can do to the state, said once: a property that the operations listed
here keep is kept by every answer. -/

namespace Sys2Proof.Machine

/-- R93: the lot is that of a queued band, or the current lot. -/
def isLotOf (s : State) (l : Option Lot) : Prop :=
  (∃ b ∈ s.bands.queue, l = some b.lot) ∨ l = s.profiles.current

/-- What is found at a place is such a lot. -/
theorem lotAt_isLotOf (s : State) (place : Int) : isLotOf s (lotAt s place).1 := by
  unfold lotAt newestAt
  split
  · rename_i b hb
    exact .inl ⟨b, List.mem_reverse.mp (List.mem_of_find?_eq_some hb), rfl⟩
  · exact .inr rfl

/-- R189, R205: the fault record that a start leaves: the one standing, or the empty one where the power
was lost. -/
def keptFault (c : Instr) (s : State) (r : FaultRecord) : Prop :=
  r = s.events.fault ∨ (r = FaultRecord.empty ∧ losesFaultRecord c = true)

/-- P is kept by the elementary operations with which the units work the command c. Each field names one
operation and what holds wherever a command uses it. -/
structure OwnerKept (P : State → Prop) (c : Instr) : Prop extends Kept P where
  -- the line unit
  count : ∀ v s, P s → P { s with line.count := v }
  position : ∀ v s, P s → P { s with line.position := v }
  speed : ∀ s, P s → P (measureSpeed s)
  step : ∀ s, P s → P (stepReference s)
  dwellEnd : ∀ s, P s → s.line.mode = .warming → P (setMode .ready .noPhase s)
  dwell : ∀ s, P s → P (checkDwell s)
  nipState : ∀ n s, P s → P { s with line.nip := n }
  feedback : ∀ s, P s → P (feedbackActive s)
  failed : ∀ s, P s → P (failedEngage s)
  beginStop : ∀ s, P s → canStop s = true → P (beginStop s)
  endStop : ∀ s, P s → P (endStop s)
  heat : ∀ s, P s → s.line.mode = .off → P (startHeat s)
  cool : ∀ s, P s → s.line.mode = .warming ∨ s.line.mode = .ready → P (startCool s)
  run : ∀ s, P s → readyToMove s = true → P (startRun s)
  thread : ∀ s, P s → readyToMove s = true → P (startThread s)
  clear : ∀ s, P s → isLineClear c = true → s.line.mode = .safe →
    P (setMode .off .noPhase { s with line.beacon := false })
  beaconOff : ∀ s, P s → P { s with line.beacon := false }
  -- the pins
  nipFb : ∀ b s, P s → P { s with pins.nipFb := b }
  guardClosed : ∀ b s, P s → P { s with pins.guardClosed := b }
  estopOn : ∀ s, P s → s.runs = true → P (enforceHold { s with pins.estop := true })
  estopOff : ∀ s, P s → P { s with pins.estop := false }
  idlePins : ∀ p s, P s → s.runs = false → (p.powered && !p.resetActive) = false →
    P { s with pins := p }
  -- the measurement unit
  scanner : ∀ m s, P s → m.channels = s.meas.channels → P { s with meas := m }
  channel : ∀ c f s, P s → P (modifyChannel c f s)
  -- the loop unit
  loopFresh : ∀ k s, P s → P (modifyLoop k (fun l => { l with stale := false }) s)
  loopStale : ∀ k s, P s →
    P (enforceHold (refreshLoop (modifyLoop k (fun l => { l with stale := true }) s) k))
  tension : ∀ t s, P s → P (refreshLoop (modifyLoop (spanLoop t) (fun l => { l with stale := false }) s)
    (spanLoop t))
  compute : ∀ k v s, P s → P (modifyLoop k (fun l => computeLoop l v) s)
  limit : ∀ z t v s, P s → P (modifyZone z (lowerLimit t v) s)
  overOn : ∀ z s, P s → P (enforceHold (modifyZone z (fun x => { x with overTemp := true }) s))
  overOff : ∀ z s, P s → P (modifyZone z (fun x => { x with overTemp := false }) s)
  span : ∀ t f s, P s → P (modifySpan t f s)
  window : ∀ s, P s → s.runs = true → P (startWindow s)
  onTime : ∀ z s, P s → P (modifyZone z (fun x => { x with heaterOn := false, onTime := none }) s)
  -- writes by the line computer
  guardedWrite : ∀ p v s, P s → p.cls = .guarded → s.line.mode = .off → P (settingWrite p v s).state
  -- lots and profiles
  heatLot : ∀ l s, P s → isLotOf s l →
    P (raiseLimits (refreshHeatSetpoints { s with profiles.heat := l }))
  nipLot : ∀ l s, P s → isLotOf s l →
    P (nipLotAtLine s.profiles.nip l (refreshTensionSetpoints { s with profiles.nip := l }))
  lot : ∀ slot s, P s → s.profiles.fabric[slot] ≠ none → P (declareLot slot s)
  colour : ∀ slot p s, P s → writesProfiles c = true → colourInUse s slot = false →
    P { s with profiles.colour := upd s.profiles.colour slot p }
  fabric : ∀ slot p s, P s → writesProfiles c = true → fabricInUse s slot = false →
    P { s with profiles.fabric := upd s.profiles.fabric slot p }
  -- the bands and the ticket engine
  accept : ∀ lot colour n d s, P s → isTicketReq c = true → s.bands.queue.length < 64 →
    ticketingCount s < 4 → s.profiles.current = some lot → s.profiles.colour[colour] ≠ none →
    P (acceptBand (newBand s lot colour n d) s)
  edit : ∀ id f s, P s → (∀ b, (f b).id = b.id ∧ (f b).colour = b.colour ∧ (f b).fabric = b.fabric) →
    (∀ b, (f b).state = .ticketing → b.state = .ticketing) → P (modifyBand id f s)
  remove : ∀ id s, P s → P (removeBand id s)
  idle : ∀ s, P s → P { s with engine.inFlight := none }
  engine : ∀ s, P s → P (startEngine s)
  admitEntries : ∀ id m r s, P s → P (offerHistory id m r s)
  clearRings : ∀ lane s, P s → P (clearHistory lane s)
  -- the reaction unit
  lockOn : ∀ s, P s → (∀ w, s.react.executor = some w → w.val = 0) → P { s with react.lock := true }
  lockOff : ∀ s, P s → P { s with react.lock := false }
  -- the event unit
  offer : ∀ r s, P s → P (offerReport r s)
  flags : ∀ k s, P s → P (clearFlags k s)
  mask : ∀ m s, P s → P (setMask m s)
  faultClear : ∀ s, P s → isFaultClear c = true → P (emptyFaultRecord s)
  -- RESTART and the settings store
  restarting : ∀ s, P s → P { s with link.restarting := true }
  nvm : ∀ n s, P s → P { s with nvm := n }

/-- A write of a point never moves a pin. -/
theorem settingWrite_pins (p : Point) (v : Int) (s : State) :
    (settingWrite p v s).state.pins = s.pins := by
  by_cases hc : p.cls = .setting
  · exact (settingWrite_frame p v s hc).pins
  · cases p <;> first | rfl | (simp [Point.cls] at hc)
    all_goals
      simp only [settingWrite, writePlain, storePlain]
      first | rfl | (split <;> rfl)

theorem loadPoint_pins (s : State) (i : Nat × Int) : (loadPoint s i).pins = s.pins := by
  unfold loadPoint
  split
  · rfl
  · split
    · exact settingWrite_pins _ _ s
    · rfl

theorem loadStore_pins (s : State) : (loadStore s).pins = s.pins := by
  unfold loadStore
  split
  · rfl
  · rename_i c _
    exact foldl_kept (P := fun t => t.pins = s.pins) loadPoint
      (fun t i h => (loadPoint_pins t i).trans h) c.points s rfl

namespace OwnerKept

variable {P : State → Prop} {c : Instr}

/-! ## Shared pieces -/

theorem withLength (n : Nat) (payload : List Byte) (s : State) (a : Answer) (h : P s)
    (ha : P a.state) : P (Machine.withLength n payload s a).state := by
  unfold Machine.withLength
  split
  · exact ha
  · exact h

/-! ## Lots and bands -/

theorem findHeatLotBy (k : OwnerKept P c) (r : EventKind → Nat → State → State)
    (hr : ∀ e d t, P t → P (r e d t)) (s : State) (h : P s) : P (Machine.findHeatLotBy r s) := by
  unfold Machine.findHeatLotBy lotEvent
  dsimp only
  split
  · exact h
  · split
    · exact k.heatLot _ _ h (lotAt_isLotOf ..)
    · exact hr _ _ _ (k.heatLot _ _ h (lotAt_isLotOf ..))

theorem findNipLotBy (k : OwnerKept P c) (r : EventKind → Nat → State → State)
    (hr : ∀ e d t, P t → P (r e d t)) (s : State) (h : P s) : P (Machine.findNipLotBy r s) := by
  unfold Machine.findNipLotBy lotEvent
  dsimp only
  split
  · exact h
  · split
    · exact k.nipLot _ _ h (lotAt_isLotOf ..)
    · exact hr _ _ _ (k.nipLot _ _ h (lotAt_isLotOf ..))

theorem findHeatLot (k : OwnerKept P c) (s : State) (h : P s) : P (Machine.findHeatLot s) :=
  k.findHeatLotBy record k.raise s h

theorem findNipLot (k : OwnerKept P c) (s : State) (h : P s) : P (Machine.findNipLot s) :=
  k.findNipLotBy record k.raise s h

theorem findLots (k : OwnerKept P c) (s : State) (h : P s) : P (Machine.findLots s) := by
  unfold Machine.findLots
  exact k.commit _ _ (k.findNipLot _ (k.commit _ _ (k.findHeatLot s h)))

theorem findLotsWithin (k : OwnerKept P c) (s : State) (h : P s) : P (Machine.findLotsWithin s) := by
  unfold Machine.findLotsWithin
  have hr : ∀ e d t, P t → P (raiseLater e d t) := fun _ _ _ h => k.deferred _ _ h
  exact k.publish _ _ (k.findNipLotBy _ hr _ (k.publish _ _ (k.findHeatLotBy _ hr s h)))

theorem settleBand (k : OwnerKept P c) (b : Band) (s : State) (h : P s) :
    P (Machine.settleBand b s) := by
  unfold Machine.settleBand
  dsimp only
  have h1 : P (modifyBand b.id (settledBand s.bands.doseTol) s) :=
    k.edit _ _ s h (fun b => ⟨rfl, rfl, rfl⟩) (fun b hb => by simp [settledBand] at hb)
  have h2 := k.settle _ (k.offer (settledReport (settledBand s.bands.doseTol b)
    (tab fun z => ratioOf (accOf b)[z] b.dTarget)) _ h1)
  refine k.commit _ _ (k.admitEntries _ _ _ _ (k.raiseEvent _ _ _ ?_))
  split
  · refine k.raiseEvent _ _ _ ?_
    split
    · exact k.raiseEvent _ _ _ h2
    · exact h2
  · split
    · exact k.raiseEvent _ _ _ h2
    · exact h2

theorem onBand (id : Nat) (rule : Band → Int → State → State)
    (hr : ∀ b m s, P s → P (rule b m s)) (s : State) (h : P s) : P (Machine.onBand id rule s) := by
  unfold Machine.onBand
  split
  · exact h
  · split
    · exact h
    · exact hr _ _ _ h

theorem trackBand (k : OwnerKept P c) (s : State) (id : Nat) (h : P s) :
    P (Machine.trackBand s id) := by
  unfold Machine.trackBand
  refine onBand id _ ?_ _ (onBand id _ ?_ _ (onBand id _ ?_ _ h))
  · intro b m s h
    unfold exitStep
    split
    · exact k.commit _ _ (k.remove _ _ h)
    · exact h
  · intro b m s h
    unfold drumStep
    split
    · split
      · exact k.settleBand b s h
      · split
        · exact k.edit _ _ s h (fun b => ⟨rfl, rfl, rfl⟩) (fun b hb => by simp [fallBack] at hb)
        · exact h
    · exact h
  · intro b m s h
    unfold webStep
    split
    · exact k.edit _ _ s h (fun b => ⟨rfl, rfl, rfl⟩) (fun b hb => by simp [enterDrum] at hb)
    · exact h

theorem publishPosition (k : OwnerKept P c) (s : State) (h : P s) :
    P (Machine.publishPosition s) := by
  unfold Machine.publishPosition
  split
  · exact h
  · refine k.findLots _ ?_
    unfold trackBands
    exact foldl_kept _ (fun s id h => k.trackBand s id h) _ _ (k.commit _ _ (k.position _ _ h))

theorem addDose (k : OwnerKept P c) (z : Fin 6) (v : Int) (id : Nat) (s : State) (h : P s) :
    P (Machine.addDose z v id s) := by
  unfold Machine.addDose
  split
  · exact h
  · dsimp only
    have h1 := fun f (hf : ∀ b : Band, (f b).id = b.id ∧ (f b).colour = b.colour ∧
      (f b).fabric = b.fabric) hs => k.edit id f s h hf hs
    split
    · refine k.raiseEvent _ _ _ (k.edit _ _ _ (h1 _ (fun b => ⟨rfl, rfl, rfl⟩) (fun b hb => hb))
        (fun b => ⟨rfl, rfl, rfl⟩) (fun b hb => hb))
    · exact h1 _ (fun b => ⟨rfl, rfl, rfl⟩) (fun b hb => hb)

theorem integrateBand (k : OwnerKept P c) (z : Fin 6) (v : Int) (held : Bool) (s : State) (id : Nat)
    (h : P s) : P (Machine.integrateBand z v held s id) := by
  unfold Machine.integrateBand
  dsimp only
  refine k.edit _ _ _ ?_ (fun b => ⟨rfl, rfl, rfl⟩) (fun b hb => hb)
  split
  · unfold checkScorch
    split
    · exact k.addDose z v id s h
    · dsimp only
      split
      · exact k.raiseEvent _ _ _ (k.edit _ _ _ (k.addDose z v id s h)
          (fun b => ⟨rfl, rfl, rfl⟩) (fun b hb => hb))
      · exact k.addDose z v id s h
  · exact h

theorem integrateDose (k : OwnerKept P c) (z : Fin 6) (v : Int) (held : Bool) (s : State) (h : P s) :
    P (Machine.integrateDose z v held s) := by
  unfold Machine.integrateDose
  exact foldl_kept _ (fun s id h => k.integrateBand z v held s id h) _ _ h

theorem completeTicket (k : OwnerKept P c) (s : State) (h : P s) : P (Machine.completeTicket s) := by
  unfold Machine.completeTicket
  split
  · exact h
  · split
    · exact k.engine _ (k.idle _ h)
    · dsimp only
      refine k.engine _ (k.idle _ (k.raiseEvent _ _ _ (k.settle _ (k.offer _ _ ?_))))
      exact k.edit _ _ _ h (fun b => ⟨rfl, rfl, rfl⟩) (fun b hb => by simp at hb)

/-! ## Arrivals -/

theorem scan (k : OwnerKept P c) (m : MeasUnit) (s : State) (h : P s)
    (hm : m.channels = s.meas.channels) : P { s with meas := m } := k.scanner m s h hm

theorem nextConversion (k : OwnerKept P c) (c : Fin 16) (s : State) (h : P s) :
    P (Machine.nextConversion c s) := by
  unfold Machine.nextConversion
  split
  · exact k.scanner _ _ h rfl
  · exact k.scanner _ _ h rfl
  · exact k.scanner _ _ h rfl
  · split <;> exact k.scanner _ _ h rfl

theorem computeIfAuto (k : OwnerKept P c) (i : Fin 10) (v : Int) (s : State) (h : P s) :
    P (Machine.computeIfAuto i v s) := by
  unfold Machine.computeIfAuto
  split
  · exact k.compute _ _ _ h
  · exact h

theorem heatArrival (k : OwnerKept P c) (z : Fin 6) (v : Int) (s : State) (h : P s) :
    P (Machine.heatArrival z v s) := by
  unfold Machine.heatArrival
  dsimp only
  have h1 := k.limit z (limitTarget s) v _ (k.loopFresh (zoneLoop z) s h)
  split
  · split
    · exact k.commit _ _ (k.computeIfAuto _ _ _ (k.overOff _ _ h1))
    · exact k.commit _ _ h1
  · split
    · exact k.commit _ _ (k.raise _ _ _ (k.overOn _ _ h1))
    · exact k.commit _ _ (k.computeIfAuto _ _ _ h1)

theorem tensionArrival (k : OwnerKept P c) (t : Fin 4) (v : Int) (s : State) (h : P s) :
    P (Machine.tensionArrival t v s) := by
  unfold Machine.tensionArrival webLossStep
  refine k.commit _ _ (k.computeIfAuto _ _ _ ?_)
  split
  · exact k.span _ _ _ (k.tension t s h)
  · exact k.tension t s h

theorem loopStaleCommit (k : OwnerKept P c) (i : Fin 10) (s : State) (h : P s) :
    P (Machine.loopStale i s) := by
  unfold Machine.loopStale
  exact k.commit _ _ (k.loopStale i s h)

theorem freshArrival (k : OwnerKept P c) (c : Fin 16) (v : Int) (s : State) (h : P s) :
    P (Machine.freshArrival c v s) := by
  unfold Machine.freshArrival
  split
  · exact k.dwell _ (k.integrateDose _ _ _ _ (k.heatArrival _ _ _ h))
  · split
    · exact k.tensionArrival _ _ _ h
    · exact h

theorem heldArrival (k : OwnerKept P c) (c : Fin 16) (v : Int) (s : State) (h : P s) :
    P (Machine.heldArrival c v s) := by
  unfold Machine.heldArrival
  split
  · exact h
  · dsimp only
    split
    · exact k.dwell _ (k.integrateDose _ _ _ _ (k.loopStaleCommit _ _ h))
    · exact k.loopStaleCommit _ _ h

theorem staleNotice (k : OwnerKept P c) (c : Fin 16) (s : State) (h : P s) :
    P (Machine.staleNotice c s) := by
  unfold Machine.staleNotice
  split
  · exact h
  · split
    · exact k.dwell _ (k.loopStaleCommit _ _ h)
    · exact k.loopStaleCommit _ _ h

theorem visitDone (k : OwnerKept P c) (ch : Fin 16) (s : State) (h : P s) :
    P (Machine.visitDone ch s) := by
  unfold Machine.visitDone
  exact k.commit _ _ (k.scanner _ _ (k.nextConversion ch s h) rfl)

theorem completeConversion (k : OwnerKept P c) (raw : Int) (s : State) (h : P s) :
    P (Machine.completeConversion raw s) := by
  unfold Machine.completeConversion
  split
  · exact h
  · rename_i ch _
    split
    · unfold normalConversion
      dsimp only
      split
      · refine k.visitDone _ _ (k.freshArrival _ _ _ (k.commitArrival _ _ _ ?_))
        split
        · exact k.raise _ _ _ (k.channel _ _ _ h)
        · exact k.channel _ _ _ h
      · refine k.visitDone _ _ (k.heldArrival _ _ _ (k.commitArrival _ _ _ ?_))
        split
        · exact k.channel _ _ _ h
        · exact k.raise _ _ _ (k.channel _ _ _ h)
    · unfold forcedConversion
      exact k.visitDone _ _ (k.freshArrival _ _ _ (k.commitArrival _ _ _ h))
    · unfold disabledConversion
      exact k.visitDone _ _ h

theorem startPass (k : OwnerKept P c) (s : State) (h : P s) : P (Machine.startPass s) := by
  unfold Machine.startPass
  exact k.scanner _ _ h rfl

/-! ## Writes of points -/

theorem writeForceable (k : OwnerKept P c) (p : Point) (v : Int) (s : State) (h : P s) :
    P (Machine.writeForceable p v s).state := by
  unfold Machine.writeForceable
  split
  · split
    · dsimp only; exact k.channel _ _ _ h
    · exact h
  · split
    · dsimp only; exact k.channel _ _ _ h
    · exact h
  · split
    · unfold writeForcedProcessed
      dsimp only
      exact k.channel _ _ _ h
    · exact h
  · exact h

theorem writeByNumber (k : OwnerKept P c) (n : Nat) (v : Int) (s : State) (h : P s) :
    P (Machine.writeByNumber n v s).state := by
  unfold Machine.writeByNumber
  split
  · exact h
  · rename_i p _
    cases hc : p.cls <;> simp only []
    · exact h
    · exact k.write p v s h hc
    · split
      · rename_i hm
        exact k.guardedWrite p v s h hc hm
      · exact h
    · exact k.writeForceable p v s h

theorem writePair (k : OwnerKept P c) (s : State) (n : Nat) (v : Int) (h : P s) :
    P (Machine.writePair s n v).1 := by
  unfold Machine.writePair followGeometry
  dsimp only
  have h1 := k.publish s _ (k.writeByNumber n v s h)
  split
  · exact h1
  · split
    · exact k.findLotsWithin _ h1
    · exact h1

theorem writePairs (k : OwnerKept P c) (l : List (Nat × Int)) :
    ∀ s, P s → P (Machine.writePairs l s).1 := by
  induction l with
  | nil => intro s h; exact h
  | cons a l ih =>
    intro s h
    obtain ⟨n, v⟩ := a
    unfold Machine.writePairs
    exact ih _ (k.writePair s n v h)

/-! ## ESTOP -/

theorem estopPressed (k : OwnerKept P c) (s : State) (h : P s) (hr : s.runs = true) :
    P (Machine.estopPressed s) := by
  unfold Machine.estopPressed
  exact k.commit _ _ (k.raise _ _ _ (k.estopOn s h hr))

/-! ## The answers of the owners -/

theorem stopCommitted (k : OwnerKept P c) (s : State) (h : P s) : P (Machine.stopCommitted s) := by
  unfold Machine.stopCommitted
  split
  · rename_i hc
    exact k.commit _ _ (k.endStop _ (k.commit _ _ (k.beginStop s h hc)))
  · exact h

theorem lineCommand (payload : List Byte) (a : State → Answer) (ha : ∀ s, P s → P (a s).state)
    (s : State) (h : P s) : P (Machine.lineCommand a payload s).state := by
  unfold Machine.lineCommand
  refine withLength _ _ _ _ h ?_
  split
  · exact ha s h
  · exact h

theorem heatAnswer (k : OwnerKept P c) (s : State) (h : P s) : P (Machine.heatAnswer s).state := by
  unfold Machine.heatAnswer
  split
  · exact h
  · rename_i hm
    split
    · exact h
    · split
      · exact h
      · split
        · exact h
        · dsimp only; exact k.commit _ _ (k.heat s h (not_not.mp hm))

theorem coolAnswer (k : OwnerKept P c) (s : State) (h : P s) : P (Machine.coolAnswer s).state := by
  unfold Machine.coolAnswer
  split
  · rename_i hm
    dsimp only; exact k.commit _ _ (k.cool s h hm)
  · exact h

theorem runAnswer (k : OwnerKept P c) (s : State) (h : P s) : P (Machine.runAnswer s).state := by
  unfold Machine.runAnswer
  split
  · rename_i hm
    dsimp only; exact k.commit _ _ (k.run s h hm)
  · exact h

theorem threadAnswer (k : OwnerKept P c) (s : State) (h : P s) : P (Machine.threadAnswer s).state := by
  unfold Machine.threadAnswer
  split
  · rename_i hm
    dsimp only; exact k.commit _ _ (k.thread s h hm)
  · exact h

theorem stopAnswer (k : OwnerKept P c) (s : State) (h : P s) : P (Machine.stopAnswer s).state := by
  unfold Machine.stopAnswer
  split
  · exact k.stopCommitted s h
  · exact h

theorem clearAnswer (k : OwnerKept P c) (hc : isLineClear c = true) (s : State) (h : P s) : P (Machine.clearAnswer s).state := by
  unfold Machine.clearAnswer
  split
  · rename_i hm
    split
    · dsimp only; exact k.commit _ _ (k.clear s h hc hm)
    · exact h
  · split
    · dsimp only; exact k.commit _ _ (k.beaconOff s h)
    · exact h

theorem scanCommand (payload : List Byte) (a : List Byte → State → Answer)
    (ha : ∀ s, P s → P (a payload s).state) (s : State) (h : P s) :
    P (Machine.scanCommand a payload s).state := by
  unfold Machine.scanCommand
  refine withLength _ _ _ _ h ?_
  split
  · exact h
  · split
    · exact h
    · exact ha s h

theorem scanStartAnswer (k : OwnerKept P c) (st : ScanState) (payload : List Byte) (s : State)
    (h : P s) : P (Machine.scanStartAnswer st payload s).state := by
  unfold Machine.scanStartAnswer
  split
  · dsimp only; exact k.commit _ _ (k.startPass _ (k.scanner _ _ h rfl))
  · exact h

theorem scanStopAnswer (k : OwnerKept P c) (payload : List Byte) (s : State) (h : P s) :
    P (Machine.scanStopAnswer payload s).state := by
  unfold Machine.scanStopAnswer haltScan
  dsimp only; refine k.commit _ _ ?_
  split
  · split <;> exact k.scanner _ _ h rfl
  · split <;> exact k.scanner _ _ h rfl
  · exact h
  · exact h

theorem scanConfigureAnswer (k : OwnerKept P c) (payload : List Byte) (s : State) (h : P s) :
    P (Machine.scanConfigureAnswer payload s).state := by
  unfold Machine.scanConfigureAnswer
  split
  · split
    · dsimp only; exact k.commit _ _ (k.scanner _ _ h rfl)
    · exact h
  · exact h

theorem channelModeAnswer (k : OwnerKept P c) (payload : List Byte) (s : State) (h : P s) :
    P (Machine.channelModeAnswer payload s).state := by
  unfold Machine.channelModeAnswer
  refine withLength _ _ _ _ h ?_
  split
  · exact h
  · split
    · split
      · exact h
      · unfold changeChannelMode
        dsimp only
        split
        · exact k.staleNotice _ _ (k.commit _ _ (k.channel _ _ _ h))
        · exact k.commit _ _ (k.channel _ _ _ h)
    · exact h

theorem zeroAnswer (k : OwnerKept P c) (payload : List Byte) (s : State) (h : P s) :
    P (Machine.zeroAnswer payload s).state := by
  unfold Machine.zeroAnswer
  refine withLength _ _ _ _ h ?_
  split
  · exact h
  · dsimp only
    split
    · exact h
    · split
      · exact h
      · split
        · exact h
        · split
          · exact h
          · dsimp only; exact k.commit _ _ (k.channel _ _ _ h)

theorem pointWriteAnswer (k : OwnerKept P c) (payload : List Byte) (s : State) (h : P s) :
    P (Machine.pointWriteAnswer payload s).state := by
  unfold Machine.pointWriteAnswer
  split
  · exact k.settle _ (k.writePairs _ s h)
  · exact h

theorem lotAnswer (k : OwnerKept P c) (payload : List Byte) (s : State) (h : P s) :
    P (Machine.lotAnswer payload s).state := by
  unfold Machine.lotAnswer
  refine withLength _ _ _ _ h ?_
  split
  · exact h
  · split
    · exact h
    · rename_i hf
      dsimp only
      exact k.findLots _ (k.commit _ _ (k.lot _ s h hf))

theorem profileWriteAnswer (k : OwnerKept P c) (hc : writesProfiles c = true) (payload : List Byte)
    (s : State) (h : P s) :
    P (Machine.profileWriteAnswer payload s).state := by
  unfold Machine.profileWriteAnswer
  split
  · exact h
  · split <;> exact h
  · split
    · exact h
    · rename_i r _
      split
      · exact h
      · unfold writeRecord
        split
        · exact h
        · split
          · exact h
          · split
            · exact h
            · split
              · exact h
              · rename_i hu
                simp only [Bool.not_eq_true] at hu
                unfold storeProfile
                cases r with
                | colour slot => exact k.colour slot _ s h hc hu
                | fabric slot => exact k.fabric slot _ s h hc hu

theorem profileEraseAnswer (k : OwnerKept P c) (hc : writesProfiles c = true) (payload : List Byte)
    (s : State) (h : P s) :
    P (Machine.profileEraseAnswer payload s).state := by
  unfold Machine.profileEraseAnswer
  refine withLength _ _ _ _ h ?_
  split
  · exact h
  · rename_i r _
    split
    · exact h
    · split
      · exact h
      · rename_i hu
        simp only [Bool.not_eq_true] at hu
        unfold emptySlot
        cases r with
        | colour slot => exact k.colour slot _ s h hc hu
        | fabric slot => exact k.fabric slot _ s h hc hu

/-- A slot number names the profile it holds. -/
theorem namedColour_occupied {s : State} {slot : Nat} {c : Fin 16} {p : ColourProfile}
    (h : namedColour s slot = some (c, p)) : s.profiles.colour[c] ≠ none := by
  unfold namedColour at h
  simp only [Option.bind_eq_some_iff, Option.map_eq_some_iff] at h
  obtain ⟨d, _, q, hq, he⟩ := h
  cases he
  rw [hq]
  exact Option.some_ne_none _

theorem ticketReqAnswer (k : OwnerKept P c) (hk : isTicketReq c = true) (payload : List Byte) (s : State) (h : P s) :
    P (Machine.ticketReqAnswer payload s).state := by
  unfold Machine.ticketReqAnswer
  refine withLength _ _ _ _ h ?_
  split
  · exact h
  · rename_i lot hl
    split
    · exact h
    · rename_i c p hc
      unfold judgeTicket
      dsimp only
      split
      · exact h
      · split
        · exact h
        · split
          · exact h
          · rename_i hq
            split
            · exact h
            · rename_i ht
              dsimp only
              exact k.commit _ _ (k.accept _ _ _ _ s h hk (not_le.mp hq) (not_le.mp ht) hl
                (namedColour_occupied hc))

theorem bandStartAnswer (k : OwnerKept P c) (payload : List Byte) (s : State) (h : P s) :
    P (Machine.bandStartAnswer payload s).state := by
  unfold Machine.bandStartAnswer
  refine withLength _ _ _ _ h ?_
  split
  · exact h
  · split
    · exact h
    · unfold judgeStart
      split
      · exact h
      · split
        · exact h
        · split
          · exact h
          · split
            · exact h
            · dsimp only; refine k.findLots _ (k.commit _ _ ?_)
              unfold startBand
              exact k.edit _ _ _ h (fun b => ⟨rfl, rfl, rfl⟩) (fun b hb => by simp at hb)

theorem bandCancelAnswer (k : OwnerKept P c) (payload : List Byte) (s : State) (h : P s) :
    P (Machine.bandCancelAnswer payload s).state := by
  unfold Machine.bandCancelAnswer
  refine withLength _ _ _ _ h ?_
  split
  · exact h
  · split
    · dsimp only; refine k.findLots _ (k.commit _ _ ?_)
      unfold cancelBand abandonTicket
      split
      · exact k.remove _ _ h
      · split
        · exact k.engine _ (k.idle _ (k.remove _ _ h))
        · exact k.remove _ _ h
    · exact h

theorem bandVoidAnswer (k : OwnerKept P c) (payload : List Byte) (s : State) (h : P s) :
    P (Machine.bandVoidAnswer payload s).state := by
  unfold Machine.bandVoidAnswer
  refine withLength _ _ _ _ h ?_
  split
  · exact h
  · split
    · exact k.edit _ _ _ h (fun b => ⟨rfl, rfl, rfl⟩) (fun b hb => hb)
    · exact h

theorem historyClearAnswer (k : OwnerKept P c) (payload : List Byte) (s : State) (h : P s) :
    P (Machine.historyClearAnswer payload s).state := by
  unfold Machine.historyClearAnswer
  refine withLength _ _ _ _ h ?_
  split
  · exact h
  · dsimp only; exact k.commit _ _ (k.clearRings _ _ h)

theorem watchWriteAnswer (k : OwnerKept P c) (payload : List Byte) (s : State) (h : P s) :
    P (Machine.watchWriteAnswer payload s).state := by
  unfold Machine.watchWriteAnswer
  refine withLength _ _ _ _ h ?_
  split
  · split
    · exact k.settle _ (k.judgeWatch _ _ _ (k.watch _ _ _ h))
    · exact h
  · exact h

theorem levelWriteAnswer (k : OwnerKept P c) (payload : List Byte) (s : State) (h : P s) :
    P (Machine.levelWriteAnswer payload s).state := by
  unfold Machine.levelWriteAnswer
  split
  · exact h
  · split
    · unfold judgeLevel
      split
      · exact h
      · split
        · exact h
        · dsimp only
          unfold defineLevel
          exact k.modifyLevel _ _ _ h
    · exact h

theorem levelCommand (payload : List Byte) (a : List Byte → State → Answer)
    (ha : ∀ s, P s → P (a payload s).state) (s : State) (h : P s) :
    P (Machine.levelCommand a payload s).state := by
  unfold Machine.levelCommand
  refine withLength _ _ _ _ h ?_
  split
  · exact ha s h
  · exact h

theorem onNamedLevel (payload : List Byte) (a : Fin 16 → State → Answer)
    (ha : ∀ l s, P s → P (a l s).state) (s : State) (h : P s) :
    P (Machine.onNamedLevel a payload s).state := by
  unfold Machine.onNamedLevel
  split
  · exact h
  · exact ha _ s h

theorem enableAnswer (k : OwnerKept P c) (l : Fin 16) (s : State) (h : P s) :
    P (Machine.enableAnswer l s).state := by
  unfold Machine.enableAnswer enableLevel
  dsimp only
  split
  · exact h
  · exact k.commitAuction _ _ (k.modifyLevel _ _ _ h)

theorem disableAnswer (k : OwnerKept P c) (l : Fin 16) (s : State) (h : P s) :
    P (Machine.disableAnswer l s).state := by
  unfold Machine.disableAnswer
  split
  · exact h
  · unfold disableLevel
    dsimp only
    split
    · exact k.commitAuction _ _ (k.free _ (k.modifyLevel _ _ _ (k.abandonAction _ h)))
    · exact k.modifyLevel _ _ _ h
    · exact k.modifyLevel _ _ _ h
    · exact h
    · exact h

theorem fireAnswer (k : OwnerKept P c) (l : Fin 16) (s : State) (h : P s) :
    P (Machine.fireAnswer l s).state := by
  unfold Machine.fireAnswer fireLevel
  dsimp only; exact k.commitAuction _ _ (k.setPending _ _ _ h)

/-- A hand-over leaves the executor as it was. -/
theorem publish_executor (old new : State) :
    (publish old new).react.executor = new.react.executor := by
  unfold publish publishArrival
  generalize List.finRange 16 = l
  refine foldl_kept (P := fun t => t.react.executor = new.react.executor)
    (handToWatch old (settleOutputs old none 5 new) none) ?_ l _ (by rw [settleOutputs_react])
  intro t w ht
  unfold handToWatch judgeWatch
  split
  · exact ht
  · split
    · dsimp only; split <;> exact ht
    · exact ht

theorem suspend_executor (s : State) : (suspend s).react.executor = none := by
  unfold suspend
  dsimp only
  exact publish_executor s _

theorem vacateForLock_executor (s : State) (w : Fin 16)
    (h : (vacateForLock s).react.executor = some w) : w.val = 0 := by
  unfold vacateForLock at h
  split at h
  · rename_i he
    rw [he] at h
    exact absurd h (by simp)
  · rename_i m he
    split at h
    · rename_i hm
      rw [he] at h
      cases h
      exact hm
    · rw [suspend_executor] at h
      exact absurd h (by simp)

theorem lockAnswer (k : OwnerKept P c) (payload : List Byte) (s : State) (h : P s) :
    P (Machine.lockAnswer payload s).state := by
  unfold Machine.lockAnswer lockReactions
  dsimp only
  split
  · exact h
  · refine k.commitAuction _ _ (k.lockOn _ ?_ (vacateForLock_executor s))
    unfold vacateForLock
    split
    · exact h
    · split
      · exact h
      · exact k.suspend _ h

theorem unlockAnswer (k : OwnerKept P c) (payload : List Byte) (s : State) (h : P s) :
    P (Machine.unlockAnswer payload s).state := by
  unfold Machine.unlockAnswer unlockReactions
  dsimp only
  split
  · exact k.commitAuction _ _ (k.lockOff _ h)
  · exact h

theorem eventsClearAnswer (k : OwnerKept P c) (payload : List Byte) (s : State) (h : P s) :
    P (Machine.eventsClearAnswer payload s).state := by
  unfold Machine.eventsClearAnswer
  refine withLength _ _ _ _ h ?_
  split
  · exact h
  · exact k.flags _ _ h

theorem maskWriteAnswer (k : OwnerKept P c) (payload : List Byte) (s : State) (h : P s) :
    P (Machine.maskWriteAnswer payload s).state := by
  unfold Machine.maskWriteAnswer
  refine withLength _ _ _ _ h ?_
  split
  · exact h
  · exact k.mask _ _ h

/-- An answer that reads leaves the state as it was. -/
theorem readAnswers (payload : List Byte) (s : State) :
    (Machine.pointReadAnswer payload s).state = s ∧ (Machine.profileReadAnswer payload s).state = s ∧
      (Machine.bandReadAnswer payload s).state = s ∧ (Machine.queueReadAnswer payload s).state = s ∧
      (Machine.historyReadAnswer payload s).state = s ∧
      (Machine.watchReadAnswer payload s).state = s ∧ (Machine.levelReadAnswer payload s).state = s ∧
      (Machine.eventsReadAnswer payload s).state = s ∧
      (Machine.faultReadAnswer payload s).state = s ∧ (Machine.helloAnswer payload s).state = s ∧
      (Machine.unknownAnswer payload s).state = s := by
  refine ⟨?_, ?_, ?_, ?_, ?_, ?_, ?_, ?_, ?_, ?_, rfl⟩
  · unfold pointReadAnswer; split <;> rfl
  · unfold profileReadAnswer Machine.withLength
    split
    · split
      · rfl
      · split <;> rfl
    · rfl
  · unfold bandReadAnswer Machine.withLength
    split
    · split <;> rfl
    · rfl
  · unfold queueReadAnswer Machine.withLength; split <;> rfl
  · unfold historyReadAnswer Machine.withLength; split <;> rfl
  · unfold watchReadAnswer Machine.withLength
    split
    · split <;> rfl
    · rfl
  · unfold levelReadAnswer Machine.withLength
    split
    · split <;> rfl
    · rfl
  · unfold eventsReadAnswer Machine.withLength; split <;> rfl
  · unfold faultReadAnswer Machine.withLength; split <;> rfl
  · unfold helloAnswer Machine.withLength; split <;> rfl

/-- A property that the listed operations keep is kept by the answer to every request. -/
theorem answers (k : OwnerKept P c) (p : List Byte) (s : State) (h : P s) :
    P (answerOf c p s).state := by
  cases c with
  | hello _ _ => exact (congrArg P (readAnswers p s).2.2.2.2.2.2.2.2.2.1).mpr h
  | pointRead _ _ => exact (congrArg P (readAnswers p s).1).mpr h
  | pointWrite _ _ => exact k.pointWriteAnswer p s h
  | lot _ _ => exact k.lotAnswer p s h
  | profileWrite _ _ => exact k.profileWriteAnswer rfl p s h
  | profileRead _ _ => exact (congrArg P (readAnswers p s).2.1).mpr h
  | profileErase _ _ => exact k.profileEraseAnswer rfl p s h
  | ticketReq _ _ => exact k.ticketReqAnswer rfl p s h
  | bandStart _ _ => exact k.bandStartAnswer p s h
  | bandCancel _ _ => exact k.bandCancelAnswer p s h
  | bandVoid _ _ => exact k.bandVoidAnswer p s h
  | bandRead _ _ => exact (congrArg P (readAnswers p s).2.2.1).mpr h
  | queueRead _ _ => exact (congrArg P (readAnswers p s).2.2.2.1).mpr h
  | historyRead _ _ => exact (congrArg P (readAnswers p s).2.2.2.2.1).mpr h
  | historyClear _ _ => exact k.historyClearAnswer p s h
  | channelMode _ _ => exact k.channelModeAnswer p s h
  | zero _ _ => exact k.zeroAnswer p s h
  | watchWrite _ _ => exact k.watchWriteAnswer p s h
  | watchRead _ _ => exact (congrArg P (readAnswers p s).2.2.2.2.2.1).mpr h
  | levelWrite _ _ => exact k.levelWriteAnswer p s h
  | levelRead _ _ => exact (congrArg P (readAnswers p s).2.2.2.2.2.2.1).mpr h
  | eventsRead _ _ => exact (congrArg P (readAnswers p s).2.2.2.2.2.2.2.1).mpr h
  | eventsClear _ _ => exact k.eventsClearAnswer p s h
  | maskWrite _ _ => exact k.maskWriteAnswer p s h
  | faultRead _ _ => exact (congrArg P (readAnswers p s).2.2.2.2.2.2.2.2.1).mpr h
  | lineCmdHeat _ _ => exact lineCommand p _ (fun v => k.heatAnswer v) s h
  | lineCmdCool _ _ => exact lineCommand p _ (fun v => k.coolAnswer v) s h
  | lineCmdRun _ _ => exact lineCommand p _ (fun v => k.runAnswer v) s h
  | lineCmdStop _ _ => exact lineCommand p _ (fun v => k.stopAnswer v) s h
  | lineCmdThread _ _ => exact lineCommand p _ (fun v => k.threadAnswer v) s h
  | lineCmdClear _ _ => exact lineCommand p _ (fun v => k.clearAnswer rfl v) s h
  | scanCmdContinuous _ _ => exact scanCommand p _ (fun v => k.scanStartAnswer _ p v) s h
  | scanCmdSingle _ _ => exact scanCommand p _ (fun v => k.scanStartAnswer _ p v) s h
  | scanCmdStop _ _ => exact scanCommand p _ (fun v => k.scanStopAnswer p v) s h
  | scanCmdConfigure _ _ => exact scanCommand p _ (fun v => k.scanConfigureAnswer p v) s h
  | levelCmdEnable _ _ =>
    exact levelCommand p _ (fun v => onNamedLevel p _ (fun l w => k.enableAnswer l w) v) s h
  | levelCmdDisable _ _ =>
    exact levelCommand p _ (fun v => onNamedLevel p _ (fun l w => k.disableAnswer l w) v) s h
  | levelCmdFire _ _ =>
    exact levelCommand p _ (fun v => onNamedLevel p _ (fun l w => k.fireAnswer l w) v) s h
  | levelCmdLock _ _ => exact levelCommand p _ (fun v => k.lockAnswer p v) s h
  | levelCmdUnlock _ _ => exact levelCommand p _ (fun v => k.unlockAnswer p v) s h
  | faultClear _ _ => exact withLength _ _ _ _ h (k.faultClear s h rfl)
  | store _ _ =>
    refine withLength _ _ _ _ h ?_
    split
    · exact h
    · split
      · exact h
      · exact k.nvm _ _ h
  | restart _ _ =>
    refine withLength _ _ _ _ h ?_
    split
    · exact h
    · exact k.restarting _ h
  | _ => exact h

end OwnerKept

end Sys2Proof.Machine
end

