-- ==== Sys2Proof/Laws/StepKept.lean ====
section
/-! SUPPORT. What a command can do to the state, said once: a property that the operations listed here and in
OwnerKept keep is kept by every command, with the requests that the link takes within it. -/

namespace Sys2Proof.Machine

/-! ## What the owners leave of the link's reception -/

theorem ReactionFrame.link {s t : State} (f : ReactionFrame s t) {b : List Frame} {r : Receiver}
    (h : s.link.buffer = b ∧ s.link.receiver = r) : t.link.buffer = b ∧ t.link.receiver = r :=
  ⟨f.buffer.trans h.1, f.receiver.trans h.2⟩

/-- The owners leave the input buffer and the receiver as they are. -/
theorem linkKept (b : List Frame) (r : Receiver) (c : Instr) :
    OwnerKept (fun s => s.link.buffer = b ∧ s.link.receiver = r) c where
  output n s := (recomputeOutput_frame n s).link
  watch _ _ _ h := h
  levels _ _ h := h
  deferred _ _ h := h
  free _ h := h
  hold _ _ h _ := h
  raise k d s := (record_frame k d s).link
  write p v s h hp := (settingWrite_frame p v s hp).link h
  ramp x y s := (startRamp_frame x y s).link
  abandon s := (abandonRamp_frame s).link
  lift s := (liftNip_frame s).link
  stop s := (stopLine_frame s).link
  heatHold s := (setHeatHold_frame true s).link
  beacon _ h := h
  report _ s := (offerReport_frame _ s).link
  safe s h _ := (safeLine_frame s).link h
  count _ _ h := h
  position _ _ h := h
  speed _ h := h
  step s := (stepReference_frame s).link
  dwellEnd s h _ := (setMode_frame ..).link h
  dwell s := (checkDwell_frame s).link
  nipState _ _ h := h
  feedback s := (feedbackActive_frame s).link
  failed s := (failedEngage_frame s).link
  beginStop s h _ := (beginStop_frame s).link h
  endStop s := (endStop_frame s).link
  heat s h _ := (startHeat_frame s).link h
  cool s h _ := (startCool_frame s).link h
  run s h _ := (startRun_frame s).link h
  thread s h _ := (startThread_frame s).link h
  clear _ h _ _ := (setMode_frame ..).link h
  beaconOff _ h := h
  nipFb _ _ h := h
  guardClosed _ _ h := h
  estopOn _ h _ := h
  estopOff _ h := h
  idlePins _ _ h _ _ := h
  scanner _ _ h _ := h
  channel _ _ _ h := h
  loopFresh _ _ h := h
  loopStale k s h := (enforceHold_frame _).link ((refreshLoop_frame _ k).link h)
  tension t s h := (refreshLoop_frame _ (spanLoop t)).link h
  compute _ _ _ h := h
  limit _ _ _ _ h := h
  overOn _ _ h := h
  overOff _ _ h := h
  span _ _ _ h := h
  window s h _ := by unfold startWindow; exact h
  onTime _ _ h := h
  guardedWrite p v s h hp _ := by
    cases p <;> first | exact h | (simp [Point.cls] at hp)
    all_goals
      simp only [settingWrite, writePlain, storePlain]
      first | exact h | (split <;> exact h)
  heatLot _ _ h _ := (raiseLimits_frame _).link ((refreshHeatSetpoints_frame _).link h)
  nipLot _ _ h _ := (nipLotAtLine_frame ..).link h
  lot _ _ h _ := h
  colour _ _ _ h _ _ := h
  fabric _ _ _ h _ _ := h
  accept _ _ _ _ s h _ _ _ _ _ := by unfold acceptBand startEngine; split <;> first | exact h | (split <;> exact h)
  edit _ _ _ h _ _ := h
  remove _ _ h := h
  idle _ h := h
  engine s h := by unfold startEngine; split <;> first | exact h | (split <;> exact h)
  admitEntries _ _ _ s h := by unfold offerHistory; split <;> exact h
  clearRings _ _ h := h
  lockOn _ h _ := h
  lockOff _ h := h
  offer r s := (offerReport_frame r s).link
  flags _ s h := by unfold clearFlags; dsimp only; split <;> exact h
  mask _ _ h := h
  faultClear _ h _ := h
  restarting _ h := h
  nvm _ _ h := h

/-- The answer to a request leaves the input buffer and the receiver as they are. -/
theorem answerOf_link (c : Instr) (p : List Byte) (s : State) :
    (answerOf c p s).state.link.buffer = s.link.buffer ∧
      (answerOf c p s).state.link.receiver = s.link.receiver :=
  (linkKept s.link.buffer s.link.receiver c).answers p s ⟨rfl, rfl⟩

theorem dequeue_link (s : State) :
    (dequeue s).link.buffer = s.link.buffer.tail ∧ (dequeue s).link.receiver = s.link.receiver := by
  unfold dequeue
  split
  · rename_i h
    unfold restartSilence
    split <;> simp [h]
  · rename_i h
    simp [h]

theorem putReply_link (r : Frame) (s : State) :
    (putReply r s).link.buffer = s.link.buffer ∧ (putReply r s).link.receiver = s.link.receiver :=
  (transmitNext_frame _).link ⟨rfl, rfl⟩

/-- R197: a frame that is taken has left the buffer, and the receiver is as it was. -/
theorem takeFrame_link {f : Frame} {s : State} (h : takeable f s = true) :
    (takeFrame f s).link.buffer = s.link.buffer.tail ∧
      (takeFrame f s).link.receiver = s.link.receiver := by
  unfold takeFrame
  rw [takeRequest_taken _ h]
  obtain ⟨a, b⟩ := putReply_link (replyFrame f
    (answerOf (requestOf f) f.payload (dequeue s)).status
    (answerOf (requestOf f) f.payload (dequeue s)).items)
    (answerOf (requestOf f) f.payload (dequeue s)).state
  obtain ⟨c, d⟩ := answerOf_link (requestOf f) f.payload (dequeue s)
  obtain ⟨e, g⟩ := dequeue_link s
  exact ⟨a.trans (c.trans e), b.trans (d.trans g)⟩

/-- R197: the frames left in the buffer are the newest ones, in their order. -/
theorem serve_link (l : List Frame) : ∀ s : State,
    (serve l s).link.buffer <:+ s.link.buffer ∧ (serve l s).link.receiver = s.link.receiver := by
  induction l with
  | nil => exact fun s => ⟨List.suffix_rfl, rfl⟩
  | cons f l ih =>
    intro s
    unfold serve
    split
    · rename_i h
      obtain ⟨a, b⟩ := ih (takeFrame f s)
      obtain ⟨c, d⟩ := takeFrame_link h
      rw [c] at a
      exact ⟨a.trans (List.tail_suffix _), b.trans d⟩
    · exact ⟨List.suffix_rfl, rfl⟩

theorem restartSilence_link (s : State) :
    (restartSilence s).link.buffer = s.link.buffer ∧
      (restartSilence s).link.receiver = s.link.receiver := by
  unfold restartSilence
  split <;> exact ⟨rfl, rfl⟩

/-- R197: a valid frame joins the buffer, or leaves it as it was. -/
theorem validFrame_link (f : Frame) (s : State) :
    ((validFrame f s).link.buffer = s.link.buffer ++ [f] ∨
      (validFrame f s).link.buffer = s.link.buffer) ∧
      (validFrame f s).link.receiver = s.link.receiver := by
  unfold validFrame
  split
  · obtain ⟨a, b⟩ := restartSilence_link { s with link.buffer := s.link.buffer ++ [f] }
    exact ⟨.inl a, b⟩
  · obtain ⟨a, b⟩ := restartSilence_link s
    have h := (raiseEvent_frame .linkError 4 (restartSilence s)).link ⟨a, b⟩
    exact ⟨.inr h.1, h.2⟩

/-! ## The bytes of a frame -/

theorem leValue_two (a b : Byte) : leBytes 2 (leValue [a, b]) = [a, b] := by
  have ha := a.isLt
  have hb := b.isLt
  simp only [leBytes, leValue, Nat.mul_zero, Nat.add_zero, List.cons.injEq, and_true]
  constructor
  · apply BitVec.eq_of_toNat_eq
    simp only [BitVec.toNat_ofNat]
    omega
  · apply BitVec.eq_of_toNat_eq
    simp only [BitVec.toNat_ofNat]
    omega

/-- R193: the bytes under the check of a gathered frame are those that were gathered. -/
theorem gatheredFrame_body {g : List Byte} (h : gatheredLength g + 6 ≤ g.length) :
    (gatheredFrame g).body <+: g := by
  match g, h with
  | a :: b :: c :: d :: p, h =>
    have hl : gatheredLength (a :: b :: c :: d :: p) = leValue [a, b] := rfl
    rw [hl] at h
    simp only [List.length_cons] at h
    have e : (p.take (leValue [a, b])).length = leValue [a, b] := by
      rw [List.length_take]; omega
    have hb : (gatheredFrame (a :: b :: c :: d :: p)).body =
        a :: b :: c :: d :: p.take (leValue [a, b]) := by
      simp only [Frame.body, gatheredFrame, hl, List.drop_succ_cons, List.drop_zero, e, leValue_two,
        List.getD_cons_succ, List.getD_cons_zero, List.cons_append, List.nil_append]
    rw [hb]
    simp only [List.cons_prefix_cons, true_and]
    exact List.take_prefix _ _
  | [], h => simp at h
  | [_], h => simp at h
  | [_, _], h => simp at h
  | [_, _, _], h => simp at h

/-! ## The operations of a command -/

/-- P is kept by the elementary operations of the command c: those of the units that own its matter, those of
the link, and the starts. -/
structure StepKept (P : State → Prop) (c : Instr) : Prop extends OwnerKept P c where
  -- the link
  receiver : ∀ r s, P s → P { s with link.receiver := r }
  buffered : ∀ f s, P s → s.link.buffer.length < 4 →
    P { s with link.buffer := s.link.buffer ++ [f] }
  silence : ∀ v s, P s → P { s with link.silence := v }
  dequeued : ∀ s, P s → P (dequeue s)
  reply : ∀ f s, P s → P (putReply f s)
  sent : ∀ s, P s → P (transmitNext { s with link.sending := none })
  -- starts
  blank : ∀ cause m r p s, P s → startsPart c = true → keptFault c s r →
    P (blankStart cause m r { s with pins := p })
  load : ∀ s, P s → s.line.mode = .off → s.bands.queue = [] → s.profiles = ProfileStore.reset →
    P (loadStore s)

namespace StepKept

variable {P : State → Prop} {c : Instr}

/-! ## The link -/

theorem whenRunning (f : State → State) (hf : ∀ s, P s → s.runs = true → P (f s)) (s : State)
    (h : P s) : P (Machine.whenRuns s f) := by
  unfold Machine.whenRuns
  split
  · rename_i hr
    exact hf s h hr
  · exact h

theorem whenRuns (f : State → State) (hf : ∀ s, P s → P (f s)) (s : State) (h : P s) :
    P (Machine.whenRuns s f) := whenRunning f (fun s h _ => hf s h) s h

theorem validFrame (k : StepKept P c) (f : Frame) (s : State) (h : P s) :
    P (Machine.validFrame f s) := by
  have hr : ∀ t, P t → P (restartSilence t) := by
    intro t ht
    unfold restartSilence
    split
    · exact k.silence _ _ ht
    · exact ht
  unfold Machine.validFrame
  split
  · rename_i hb
    exact hr _ (k.buffered f s h hb)
  · exact k.raiseEvent _ _ _ (hr s h)

theorem takeRequest (k : StepKept P c) (f : Frame) (a : List Byte → State → Answer)
    (ha : ∀ s, P s → P (a f.payload s).state) (s : State) (h : P s) :
    P (Machine.takeRequest f a s) := by
  unfold Machine.takeRequest
  split
  · exact k.reply _ _ (ha _ (k.dequeued s h))
  · split
    · exact k.validFrame f s h
    · exact h

theorem takeRow (k : StepKept P c) (codes own : Nat) (f : Frame) (a : List Byte → State → Answer)
    (ha : ∀ s, P s → P (a f.payload s).state) (s : State) (h : P s) :
    P (Machine.takeRow codes own f a s) := by
  unfold Machine.takeRow
  split
  · exact k.takeRequest f a ha s h
  · exact h

/-- The link takes the frames that wait, each by its owner's answer. -/
theorem serve (k : StepKept P c) (l : List Frame) (hl : ∀ f ∈ l, OwnerKept P (requestOf f)) :
    ∀ s, P s → P (Machine.serve l s) := by
  induction l with
  | nil => exact fun s h => h
  | cons f l ih =>
    intro s h
    unfold Machine.serve
    split
    · exact ih (fun g hg => hl g (List.mem_cons_of_mem _ hg)) _
        (k.takeRequest f _ (fun u hu => (hl f List.mem_cons_self).answers _ u hu) s h)
    · exact h

/-- What holds between the bytes of a reception: P, and that P is kept by the requests of the frames that wait
and of those that the bytes still to come can complete. -/
structure Receiving (P : State → Prop) (rest : List Byte) (s : State) : Prop where
  kept : P s
  waiting : ∀ f ∈ s.link.buffer, OwnerKept P (requestOf f)
  coming : ∀ f : Frame, f.body <:+: gatheredSoFar s ++ rest → OwnerKept P (requestOf f)

theorem gathered_inside {s : State} {g : List Byte} (h : s.link.receiver = .inside g) :
    gatheredSoFar s = g := by
  unfold gatheredSoFar
  rw [h]

theorem gathered_hunting {s : State} (h : s.link.receiver = .hunting) : gatheredSoFar s = [] := by
  unfold gatheredSoFar
  rw [h]

theorem gather (k : StepKept P c) (g rest : List Byte) (s : State) (h : P s)
    (hw : ∀ f ∈ s.link.buffer, OwnerKept P (requestOf f))
    (hc : ∀ f : Frame, f.body <:+: g ++ rest → OwnerKept P (requestOf f)) :
    Receiving P rest (Machine.gather g s) := by
  have hh : ∀ t : State, t.link.receiver = .hunting →
      ∀ f : Frame, f.body <:+: gatheredSoFar t ++ rest → OwnerKept P (requestOf f) := by
    intro t ht f hf
    rw [gathered_hunting ht, List.nil_append] at hf
    exact hc f (hf.trans (List.suffix_append g rest).isInfix)
  have hi : Receiving P rest { s with link.receiver := .inside g } := by
    refine ⟨k.receiver _ _ h, hw, fun f hf => hc f ?_⟩
    rwa [gathered_inside rfl] at hf
  have hr : ∀ d, Receiving P rest (raiseEvent .linkError d { s with link.receiver := .hunting }) := by
    intro d
    have hf := raiseEvent_frame .linkError d { s with link.receiver := .hunting }
    exact ⟨k.raiseEvent _ _ _ (k.receiver _ _ h), fun f hb => hw f (by rw [hf.buffer] at hb; exact hb),
      hh _ hf.receiver⟩
  unfold Machine.gather
  split
  · exact hi
  · split
    · exact hr 2
    · split
      · exact hi
      · split
        · rename_i hl _
          obtain ⟨hb, hv⟩ := validFrame_link (gatheredFrame g) { s with link.receiver := .hunting }
          have hall : ∀ f ∈ (Machine.validFrame (gatheredFrame g)
              { s with link.receiver := .hunting }).link.buffer, OwnerKept P (requestOf f) := by
            intro f hf
            rcases hb with hb | hb
            · rw [hb, List.mem_append, List.mem_singleton] at hf
              rcases hf with hf | hf
              · exact hw f hf
              · rw [hf]
                exact hc _ ((gatheredFrame_body (by omega)).isInfix.trans
                  (List.prefix_append g rest).isInfix)
            · rw [hb] at hf
              exact hw f hf
          obtain ⟨hs, hq⟩ := serve_link _ (Machine.validFrame (gatheredFrame g)
            { s with link.receiver := .hunting })
          exact ⟨k.serve _ hall _ (k.validFrame _ _ (k.receiver _ _ h)),
            fun f hf => hall f (hs.subset hf), hh _ (hq.trans hv)⟩
        · exact hr 1

theorem receiveByte (k : StepKept P c) (b : Byte) (rest : List Byte) (s : State)
    (h : Receiving P (b :: rest) s) : Receiving P rest (Machine.receiveByte s b) := by
  obtain ⟨hp, hw, hc⟩ := h
  unfold Machine.receiveByte
  split
  · rename_i hr
    rw [gathered_hunting hr, List.nil_append] at hc
    have hs : rest <:+: b :: rest := (List.suffix_cons b rest).isInfix
    split
    · refine ⟨k.receiver _ _ hp, hw, fun f hf => hc f ?_⟩
      rw [gathered_inside rfl, List.nil_append] at hf
      exact hf.trans hs
    · refine ⟨hp, hw, fun f hf => hc f ?_⟩
      rw [gathered_hunting hr, List.nil_append] at hf
      exact hf.trans hs
  · rename_i g hr
    rw [gathered_inside hr] at hc
    refine k.gather _ _ _ hp hw fun f hf => hc f ?_
    simpa using hf

theorem receiveBytes (k : StepKept P c) (bytes : List Byte) : ∀ s, Receiving P bytes s →
    P (Machine.receiveBytes bytes s) := by
  unfold Machine.receiveBytes
  induction bytes with
  | nil => exact fun s h => h.kept
  | cons b l ih => exact fun s h => ih _ (k.receiveByte b l s h)

/-! ## Starts -/

theorem startPart (k : StepKept P c) (hc : startsPart c = true) (cause : StartCause)
    (m : Option LineMode) (r : FaultRecord) (p : Pins) (s : State) (h : P s)
    (hr : keptFault c s r) (hp : (p.powered && !p.resetActive) = true) :
    P (Machine.startPart cause m r { s with pins := p }) := by
  unfold Machine.startPart takeEstop
  have h1 := k.load _ (k.blank cause m r p s h hc hr) rfl rfl rfl
  split
  · refine k.estopPressed _ (k.estopOff _ h1) ?_
    simp only [State.runs]
    rw [loadStore_pins]
    exact hp
  · exact h1

/-- The part is held in reset, with its pins as they now stand. -/
theorem heldInReset (k : StepKept P c) (hc : startsPart c = true) (m : Option LineMode)
    (r : FaultRecord) (p : Pins) (s : State) (h : P s) (hr : keptFault c s r) :
    P (holdInReset m r { s with pins := p }) := by
  unfold holdInReset
  exact k.blank _ m r p s h hc hr

/-! ## Every command -/

/-- A property that the listed operations keep is kept by every command, if the requests that the link may take
within it keep it too. -/
theorem exec (k : StepKept P c) (s : State) (h : P s)
    (ho : ∀ f, mayTake c s f → OwnerKept P (requestOf f)) :
    ∃ t, Machine.exec c s = .next t ∧ P t := by
  cases c with
  | powerOn straps =>
    refine ⟨_, rfl, ?_⟩
    unfold powerOn
    dsimp only
    split
    · exact k.heldInReset rfl _ _ _ s h (.inr ⟨rfl, rfl⟩)
    · rename_i hr
      exact k.startPart rfl _ _ _ _ s h (.inr ⟨rfl, rfl⟩) (by simp [hr])
  | powerLoss => exact ⟨_, rfl, k.heldInReset rfl _ _ _ s h (.inr ⟨rfl, rfl⟩)⟩
  | resetLineActive =>
    refine ⟨_, rfl, ?_⟩
    unfold resetActivated
    dsimp only
    split
    · exact h
    · split
      · exact k.heldInReset rfl _ _ _ s h (.inl rfl)
      · rename_i hp
        exact k.idlePins _ s h (by simp [State.runs, hp]) (by simp)
  | resetLineRelease straps =>
    refine ⟨_, rfl, ?_⟩
    unfold resetReleased
    dsimp only
    split
    · split
      · rename_i hp
        exact k.startPart rfl _ _ _ _ s h (.inl rfl) (by simp [hp])
      · rename_i hr hp
        exact k.idlePins _ s h (by simp [State.runs, hr]) (by simp [hp])
    · exact h
  | quadratureEdge f => exact ⟨_, rfl, whenRuns _ (fun s h => k.count _ s h) s h⟩
  | positionChange d =>
    exact ⟨_, rfl, whenRuns _ (fun s h => k.publishPosition _ (k.count _ s h)) s h⟩
  | speedPeriodExpiry =>
    refine ⟨_, rfl, whenRuns _ (fun s h => ?_) s h⟩
    exact k.commit _ _ (k.step _ (k.commit _ _ (k.speed s h)))
  | warmUpDwellExpiry =>
    refine ⟨_, rfl, whenRuns _ (fun s h => ?_) s h⟩
    unfold dwellExpired
    split
    · exact h
    · split
      · rename_i hm
        exact k.commit _ _ (k.dwellEnd s h hm)
      · exact h
  | nipFbActive =>
    refine ⟨_, rfl, ?_⟩
    split
    · exact h
    · dsimp only
      split
      · exact k.commit _ _ (k.feedback _ (k.nipFb _ _ h))
      · exact k.nipFb _ _ h
  | nipFbInactive =>
    refine ⟨_, rfl, ?_⟩
    split
    · dsimp only
      split
      · unfold feedbackInactive
        split
        · split
          · dsimp only
            have h1 := k.commit s _ (k.raise .nipFault 0 _ (k.nipState .lost _ (k.nipFb false _ h)))
            split
            · exact k.stopCommitted _ h1
            · exact h1
          · exact k.commit _ _ (k.nipState _ _ (k.nipFb _ _ h))
        · unfold liftDone
          refine k.commit _ _ ?_
          split
          · exact k.deferOffer _ _ (k.nipState _ _ (k.nipFb _ _ h))
          · exact k.nipState _ _ (k.nipFb _ _ h)
        · exact k.commit _ _ (k.nipFb _ _ h)
        · exact k.commit _ _ (k.nipFb _ _ h)
        · exact k.commit _ _ (k.nipFb _ _ h)
      · exact k.nipFb _ _ h
    · exact h
  | engageTimingExpiry =>
    refine ⟨_, rfl, whenRuns _ (fun s h => ?_) s h⟩
    unfold engageTimingEnds engageExpired
    dsimp only
    split
    · exact k.commit _ _ (k.failed _ (k.commit _ _ (k.nipState _ _ (k.raise _ _ _ h))))
    · exact h
  | liftTimingExpiry =>
    refine ⟨_, rfl, whenRuns _ (fun s h => ?_) s h⟩
    unfold liftTimingEnds liftDone
    split
    · refine k.commit _ _ ?_
      split
      · exact k.deferOffer _ _ (k.nipState _ _ (k.raise _ _ _ h))
      · exact k.nipState _ _ (k.raise _ _ _ h)
    · exact h
  | estopActive =>
    refine ⟨_, rfl, ?_⟩
    split
    · exact h
    · split
      · rename_i hr
        exact k.estopPressed s h hr
      · rename_i hr
        simp only [Bool.not_eq_true] at hr
        exact k.idlePins _ s h hr (by simpa [State.runs] using hr)
  | estopReleased =>
    refine ⟨_, rfl, ?_⟩
    split
    · exact k.commit _ _ (k.estopOff _ h)
    · exact k.estopOff _ h
  | guardOpens =>
    refine ⟨_, rfl, ?_⟩
    split
    · split
      · unfold guardOpened
        refine k.commit _ _ ?_
        split
        · exact k.raise _ _ _ (k.guardClosed _ _ h)
        · exact k.guardClosed _ _ h
      · exact k.guardClosed _ _ h
    · exact h
  | guardCloses =>
    refine ⟨_, rfl, ?_⟩
    split
    · exact k.commit _ _ (k.guardClosed _ _ h)
    · exact k.guardClosed _ _ h
  | scanCycleExpiry =>
    refine ⟨_, rfl, whenRuns _ (fun s h => ?_) s h⟩
    unfold scanCycle
    split
    · exact k.commit _ _ (k.startPass _ h)
    · exact h
  | conversionComplete raw => exact ⟨_, rfl, whenRuns _ (fun s h => k.completeConversion _ s h) s h⟩
  | silenceTimingExpiry c =>
    refine ⟨_, rfl, whenRuns _ (fun s h => ?_) s h⟩
    unfold expireSilence
    split
    · exact k.staleNotice _ _ (k.commit _ _ (k.channel _ _ _ h))
    · exact h
  | heaterWindowStart =>
    exact ⟨_, rfl, whenRunning _ (fun s h hr => k.commit _ _ (k.window _ h hr)) s h⟩
  | heaterOnTimeEnd z =>
    refine ⟨_, rfl, whenRuns _ (fun s h => ?_) s h⟩
    unfold onTimeEnds
    split
    · exact h
    · exact k.onTime _ _ h
  | webLossExpiry t =>
    refine ⟨_, rfl, whenRuns _ (fun s h => ?_) s h⟩
    unfold webLossExpired
    split
    · exact h
    · exact k.commit _ _ (k.raise _ _ _ (k.span _ _ _ h))
  | watchPersistenceExpiry w =>
    refine ⟨_, rfl, whenRuns _ (fun s h => ?_) s h⟩
    unfold persistenceEnds
    split
    · exact k.settle _ (k.deferOffer _ _ (k.watch _ _ _ h))
    · exact h
  | linkSilenceExpiry =>
    refine ⟨_, rfl, whenRuns _ (fun s h => ?_) s h⟩
    unfold silenceExpired
    split
    · exact h
    · exact k.raiseEvent _ _ _ (k.silence _ _ h)
  | ticketCompletion =>
    exact ⟨_, rfl, whenRuns _ (fun s h => k.commit _ _ (k.completeTicket _ h)) s h⟩
  | storeWriteComplete b =>
    refine ⟨_, rfl, whenRuns _ (fun s h => ?_) s h⟩
    unfold endStore
    split
    · exact h
    · split
      · exact k.commit _ _ (k.raise _ _ _ (k.nvm _ _ h))
      · exact k.commit _ _ (k.raise _ _ _ (k.nvm _ _ h))
  | frameReceived bytes =>
    refine ⟨_, rfl, ?_⟩
    unfold Machine.whenRuns
    split
    · exact k.receiveBytes bytes s
        ⟨h, fun f hf => ho f (.inl hf), fun f hf => ho f (.inr hf)⟩
    · exact h
  | frameSyncReceived b =>
    refine ⟨_, rfl, ?_⟩
    unfold Machine.whenRuns
    split
    · exact k.receiveBytes [b] s
        ⟨h, fun f hf => ho f (.inl hf), fun f hf => ho f (.inr hf)⟩
    · exact h
  | interbyteGapTimeout =>
    refine ⟨_, rfl, whenRuns _ (fun s h => ?_) s h⟩
    unfold gapTimeout
    split
    · exact h
    · exact k.raiseEvent _ _ _ (k.receiver _ _ h)
  | transmitComplete =>
    refine ⟨_, rfl, ?_⟩
    unfold Machine.whenRuns
    split
    · rename_i hr
      unfold frameSent
      split
      · exact h
      · split
        · exact k.startPart rfl _ _ _ s.pins s h (.inl rfl) hr
        · refine k.serve _ (fun f hf => ho f ?_) _ (k.sent _ h)
          rwa [(transmitNext_frame _).buffer] at hf
    · exact h
  | hello tag p => exact ⟨_, rfl, k.takeRequest _ _ (k.answers p) s h⟩
  | pointRead tag p => exact ⟨_, rfl, k.takeRequest _ _ (k.answers p) s h⟩
  | pointWrite tag p => exact ⟨_, rfl, k.takeRequest _ _ (k.answers p) s h⟩
  | lot tag p => exact ⟨_, rfl, k.takeRequest _ _ (k.answers p) s h⟩
  | profileWrite tag p => exact ⟨_, rfl, k.takeRequest _ _ (k.answers p) s h⟩
  | profileRead tag p => exact ⟨_, rfl, k.takeRequest _ _ (k.answers p) s h⟩
  | profileErase tag p => exact ⟨_, rfl, k.takeRequest _ _ (k.answers p) s h⟩
  | ticketReq tag p => exact ⟨_, rfl, k.takeRequest _ _ (k.answers p) s h⟩
  | bandStart tag p => exact ⟨_, rfl, k.takeRequest _ _ (k.answers p) s h⟩
  | bandCancel tag p => exact ⟨_, rfl, k.takeRequest _ _ (k.answers p) s h⟩
  | bandVoid tag p => exact ⟨_, rfl, k.takeRequest _ _ (k.answers p) s h⟩
  | bandRead tag p => exact ⟨_, rfl, k.takeRequest _ _ (k.answers p) s h⟩
  | queueRead tag p => exact ⟨_, rfl, k.takeRequest _ _ (k.answers p) s h⟩
  | historyRead tag p => exact ⟨_, rfl, k.takeRequest _ _ (k.answers p) s h⟩
  | historyClear tag p => exact ⟨_, rfl, k.takeRequest _ _ (k.answers p) s h⟩
  | channelMode tag p => exact ⟨_, rfl, k.takeRequest _ _ (k.answers p) s h⟩
  | zero tag p => exact ⟨_, rfl, k.takeRequest _ _ (k.answers p) s h⟩
  | watchWrite tag p => exact ⟨_, rfl, k.takeRequest _ _ (k.answers p) s h⟩
  | watchRead tag p => exact ⟨_, rfl, k.takeRequest _ _ (k.answers p) s h⟩
  | levelWrite tag p => exact ⟨_, rfl, k.takeRequest _ _ (k.answers p) s h⟩
  | levelRead tag p => exact ⟨_, rfl, k.takeRequest _ _ (k.answers p) s h⟩
  | eventsRead tag p => exact ⟨_, rfl, k.takeRequest _ _ (k.answers p) s h⟩
  | eventsClear tag p => exact ⟨_, rfl, k.takeRequest _ _ (k.answers p) s h⟩
  | maskWrite tag p => exact ⟨_, rfl, k.takeRequest _ _ (k.answers p) s h⟩
  | faultRead tag p => exact ⟨_, rfl, k.takeRequest _ _ (k.answers p) s h⟩
  | faultClear tag p => exact ⟨_, rfl, k.takeRequest _ _ (k.answers p) s h⟩
  | store tag p => exact ⟨_, rfl, k.takeRequest _ _ (k.answers p) s h⟩
  | restart tag p => exact ⟨_, rfl, k.takeRequest _ _ (k.answers p) s h⟩
  | lineCmdHeat tag p => exact ⟨_, rfl, k.takeRow _ _ _ _ (k.answers p) s h⟩
  | lineCmdCool tag p => exact ⟨_, rfl, k.takeRow _ _ _ _ (k.answers p) s h⟩
  | lineCmdRun tag p => exact ⟨_, rfl, k.takeRow _ _ _ _ (k.answers p) s h⟩
  | lineCmdStop tag p => exact ⟨_, rfl, k.takeRow _ _ _ _ (k.answers p) s h⟩
  | lineCmdThread tag p => exact ⟨_, rfl, k.takeRow _ _ _ _ (k.answers p) s h⟩
  | lineCmdClear tag p => exact ⟨_, rfl, k.takeRow _ _ _ _ (k.answers p) s h⟩
  | scanCmdContinuous tag p => exact ⟨_, rfl, k.takeRow _ _ _ _ (k.answers p) s h⟩
  | scanCmdSingle tag p => exact ⟨_, rfl, k.takeRow _ _ _ _ (k.answers p) s h⟩
  | scanCmdStop tag p => exact ⟨_, rfl, k.takeRow _ _ _ _ (k.answers p) s h⟩
  | scanCmdConfigure tag p => exact ⟨_, rfl, k.takeRow _ _ _ _ (k.answers p) s h⟩
  | levelCmdEnable tag p => exact ⟨_, rfl, k.takeRow _ _ _ _ (k.answers p) s h⟩
  | levelCmdDisable tag p => exact ⟨_, rfl, k.takeRow _ _ _ _ (k.answers p) s h⟩
  | levelCmdFire tag p => exact ⟨_, rfl, k.takeRow _ _ _ _ (k.answers p) s h⟩
  | levelCmdLock tag p => exact ⟨_, rfl, k.takeRow _ _ _ _ (k.answers p) s h⟩
  | levelCmdUnlock tag p => exact ⟨_, rfl, k.takeRow _ _ _ _ (k.answers p) s h⟩
  | unknownRequest kind tag p =>
    refine ⟨_, rfl, ?_⟩
    split
    · exact k.takeRequest _ _ (k.answers p) s h
    · exact h

end StepKept

end Sys2Proof.Machine
end

