-- ==== Sys2Proof/Tests/Slice0.lean ====
section
/-! SUPPORT. Tests: the checks of WellFormed, single steps against figures the spec gives, and for every
statement with hypotheses a state and operands that meet them, clause by clause. -/

set_option maxRecDepth 20000

namespace Sys2Proof.Tests

open Sys2Proof Sys2Proof.Machine

/-! ## WellFormed refuses an ill-formed term of each check -/

theorem test_wellFormed_position :
    (Instr.positionChange 9223372036854775807).wellFormed = true ∧
      (Instr.positionChange 9223372036854775808).wellFormed = false := by decide

theorem test_wellFormed_frame :
    (Instr.frameReceived (List.replicate 1031 0)).wellFormed = true ∧
      (Instr.frameReceived (List.replicate 1032 0)).wellFormed = false := by decide

theorem test_wellFormed_payload :
    (Instr.pointRead 0 (List.replicate 1024 0)).wellFormed = true ∧
      (Instr.pointRead 0 (List.replicate 1025 0)).wellFormed = false := by decide

theorem test_wellFormed_rows :
    (Instr.lineCmdHeat 0 [0]).wellFormed = true ∧ (Instr.lineCmdHeat 0 [1]).wellFormed = false ∧
      (Instr.lineCmdClear 0 [6]).wellFormed = true ∧ (Instr.scanCmdStop 0 [3]).wellFormed = false ∧
      (Instr.levelCmdFire 0 [4, 0]).wellFormed = false := by decide

theorem test_wellFormed_kind :
    (Instr.unknownRequest 0x20 0 []).wellFormed = true ∧
      (Instr.unknownRequest 0x1F 0 []).wellFormed = false ∧
      (Instr.unknownRequest 0x01 0 []).wellFormed = false := by decide

theorem test_decode_none : decodeTableWord 8 0 = none ∧ decodeTableWord 16 0xFFFF = none := by decide

/-! ## States the tests stand on -/

/-- The outcome of a command is a next state with this property. -/
def nextHas (o : Host.Outcome State Fault Refusal) (p : State → Bool) : Bool :=
  match o with
  | .next t => p t
  | .fault _ => false
  | .refused _ => false

/-- The part after reset, in a line mode and run phase. -/
def atMode (m : LineMode) (p : RunPhase) : State :=
  { State.reset with line.mode := m, line.phase := p }

/-- READY with the guard closed. -/
def readyLine : State := { atMode .ready .noPhase with pins.guardClosed := true }

/-- RUNNING, on its ramp. -/
def runningLine : State :=
  { atMode .running .ramping with
    pins.guardClosed := true, line.target := 300, line.reference := 100, line.feed := true }

/-- The state with its frame at the head of the input buffer. -/
def buffered (f : Frame) (s : State) : State := { s with link.buffer := [f] }

/-- The yellow ink's nodes of Table 8-1. -/
def nodes81 : Vector Int 9 := ⟨#[610, 700, 790, 860, 910, 945, 965, 975, 980], rfl⟩

/-- A colour profile with the figures of R145 and Table 8-1. -/
def colour81 : ColourProfile where
  name := []
  tFloor := 1500
  dLo := 150000
  step := 25000
  yRef := tab fun _ => 900
  bMax := tab fun _ => 4096
  nodes := tab fun _ => nodes81

/-- A fabric profile with the figures of R145. -/
def fabric145 : FabricProfile where
  name := []
  tSet := 2000
  vRun := 330
  tension := tab fun _ => 800
  lTotal := 12288
  dScorch := 300000

/-- A band of the queue, not started. -/
def band (id : Nat) (st : BandState) : Band where
  id := id
  state := st
  lotSeq := 1
  fabric := 0
  colour := 0
  length := 1000
  dTarget := 227000
  start := none
  ticket := none
  acc := none
  ratios := none
  marks := BandMarks.empty

/-- A band started at web position p. -/
def started (id : Nat) (st : BandState) (p : Int) : Band := { band id st with start := some p }

/-- The part with a profile of each kind in slot 0 and a current lot. -/
def withLot (s : State) : State :=
  { s with
    profiles.colour := tab fun c => if c = 0 then some colour81 else none
    profiles.fabric := tab fun f => if f = 0 then some fabric145 else none
    profiles.current := some ⟨1, 0⟩
    profiles.seqCounter := 1 }

/-- The same, with a queue of bands. -/
def withQueue (q : List Band) (s : State) : State :=
  { withLot s with bands.queue := q, bands.idCounter := q.length }

def snapshot81 : Snapshot where
  counts := tab fun z => if z = 0 then 0 else 8
  means := tab fun z => if z = 0 then 4096 else 4112
  gMin := 3277
  gMax := 5120
  dTarget := 227000
  colour := colour81
  lTotal := 12288

/-! ## Figures the spec gives -/

/-- R195: the nine bytes 0x31 to 0x39 give 0x29B1. -/
theorem test_crc_example : crc [0x31, 0x32, 0x33, 0x34, 0x35, 0x36, 0x37, 0x38, 0x39] = 0x29B1 := by
  decide

/-- R145: 500 × 454. -/
theorem test_dose_target : doseTarget fabric145 colour81 1500 = 227000 := by decide

/-- Table 8-1. -/
theorem test_yields :
    yieldAt colour81 nodes81 140000 = 610 ∧ yieldAt colour81 nodes81 150000 = 610 ∧
      yieldAt colour81 nodes81 175020 = 700 ∧ yieldAt colour81 nodes81 225836 = 862 ∧
      yieldAt colour81 nodes81 250000 = 910 ∧ yieldAt colour81 nodes81 362000 = 980 := by decide

/-- R3: forty counts are one position; a count short of it is not. -/
theorem test_position_change :
    nextHas (exec (.positionChange 40) State.reset) (fun t => t.line.position == 1) = true ∧
      nextHas (exec (.positionChange 39) State.reset)
        (fun t => t.line.position == 0 && t.line.count == 39) = true ∧
      nextHas (exec (.positionChange (-1)) State.reset) (fun t => t.line.position == -1) = true := by
  decide

/-- R5: with 40 counts a mm, one count in a period is floor(100 / 40) = 2, and one backward
floor(-100 / 40) = -3. -/
theorem test_speed :
    nextHas (exec .speedPeriodExpiry { State.reset with line.count := 1 })
        (fun t => t.line.speed == 2 && t.line.sample == 1) = true ∧
      nextHas (exec .speedPeriodExpiry { State.reset with line.count := -1 })
        (fun t => t.line.speed == -3) = true := by decide

/-- R21: NIP_FB drops in CLOSED while RUNNING: NIP_FAULT, and the line stops. -/
theorem test_nip_lost :
    nextHas (exec .nipFbInactive { runningLine with line.nip := .closed, pins.nipFb := true })
      (fun t => t.line.nip == .lost && t.line.mode == .stopping && t.line.target == 0 &&
        hasKind t.events.set .nipFault) = true := by decide

/-- R17, R23, R163, R176: ESTOP while RUNNING leads through level 0 into SAFE with the beacon on. -/
theorem test_estop_safe :
    nextHas (exec .estopActive runningLine)
      (fun t => t.line.mode == .safe && t.line.beacon && !t.line.feed &&
        t.events.fault.first == some .estop && t.events.fault.mode == some .running) = true := by decide

/-- R31: a raw value of 35 is SHORTED, 36 is good; 65,499 is good and 65,500 is OPEN. -/
theorem test_conversion_limits :
    nextHas (exec (.conversionComplete 35) State.reset)
        (fun t => (t.meas.channels[0]).status == .shorted) = true ∧
      nextHas (exec (.conversionComplete 36) State.reset)
        (fun t => (t.meas.channels[0]).status == .ok && (t.meas.channels[0]).processed == 36 &&
          t.meas.converting == some 1 && t.meas.lastChannel == some 0) = true ∧
      nextHas (exec (.conversionComplete 65499) State.reset)
        (fun t => (t.meas.channels[0]).processed == 65499) = true ∧
      nextHas (exec (.conversionComplete 65500) State.reset)
        (fun t => (t.meas.channels[0]).status == .openCircuit) = true := by decide

/-- R200, Table 11-4: a write beyond the range of ramp_rate (point 21) is CLAMPED to 200. -/
theorem test_point_write :
    nextHas (exec (.pointWrite 7 [21, 0, 0xFF, 0, 0, 0]) State.reset)
      (fun t => t.line.rampRate == 200 &&
        t.link.sending == some ⟨0x83, 7, [0, 1]⟩) = true := by decide

/-- R104, R105, R145: an accepted TICKET_REQ answers id 1 and 227,000 (0x000376B8). -/
theorem test_ticket_req :
    nextHas (exec (.ticketReq 9 [0xE8, 0x03, 0]) (withLot State.reset))
      (fun t => t.link.sending == some ⟨0x89, 9, [0, 1, 0, 0xB8, 0x76, 0x03, 0]⟩ &&
        t.engine.inFlight.isSome) = true := by decide

/-- R198: a request of no kind is answered UNKNOWN, its kind plus 0x80 and its tag kept. -/
theorem test_unknown_request :
    nextHas (exec (.unknownRequest 0x22 5 [1, 2]) State.reset)
      (fun t => t.link.sending == some ⟨0xA2, 5, [2]⟩) = true := by decide

/-- R193, R195: a HELLO frame with tag 7, byte by byte (its check, worked by hand, is 0xC716). -/
def helloBytes : List Byte := [0xA5, 0, 0, 0x01, 7, 0x16, 0xC7]

/-- A busy transmitter, with a reply in the slot. -/
def busyLink : State :=
  { State.reset with link.sending := some ⟨0x99, 1, [0]⟩, link.slot := some ⟨0x99, 2, [0]⟩ }

/-- R197: with the slot empty the frame is taken at once, and an idle transmitter sends its reply. -/
theorem test_frame_received :
    nextHas (exec (.frameReceived helloBytes) State.reset)
      (fun t => t.link.buffer == [] && t.link.receiver == .hunting &&
        t.link.sending.map Frame.tag == some 7) = true := by decide

/-- R197: with a reply in the slot the frame waits, and so does a request command. -/
theorem test_frame_waits :
    nextHas (exec (.frameReceived helloBytes) busyLink) (fun t => t.link.buffer == [⟨0x01, 7, []⟩]) = true ∧
      nextHas (exec (.hello 7 []) busyLink) (fun t => t.link.buffer == [⟨0x01, 7, []⟩]) = true := by decide

/-- R197, R199: the reply begins on the line, and the oldest frame is taken into the slot. -/
theorem test_buffered_frame_taken :
    nextHas (exec .transmitComplete { busyLink with link.buffer := [⟨0x22, 5, [1]⟩, ⟨0x01, 7, []⟩] })
      (fun t => t.link.sending == some ⟨0x99, 2, [0]⟩ && t.link.slot == some ⟨0xA2, 5, [2]⟩ &&
        t.link.buffer == [⟨0x01, 7, []⟩]) = true := by decide

/-! ## Worked cases of the spec, each one step -/

/-- Table 3-4: the seven statuses of one POINT_WRITE in READY, and what its points hold after. -/
theorem test_table_3_4 :
    nextHas
      (exec (.pointWrite 0 [21, 0, 250, 0, 0, 0, 17, 0, 0x1C, 0x25, 0, 0, 2, 0, 0, 0, 0, 0, 0x90, 1, 5, 0,
        0, 0, 35, 0, 0x2E, 9, 0, 0, 0x36, 1, 0x58, 2, 0, 0, 21, 0, 15, 0, 0, 0]) readyLine)
      (fun t => t.link.sending == some ⟨0x83, 0, [0, 1, 6, 5, 4, 1, 11, 0]⟩ &&
        t.line.rampRate == 15 && t.line.pIn == 9000 && t.loops.heaterWindow == 2300) = true := by decide

/-- Table 4-5. -/
theorem test_table_4_5 :
    countsFor ⟨0, 0, 2400, 0, 65535, 0⟩ 330 = 9011 ∧ countsFor ⟨0, 0, 2400, 0, 65535, 0⟩ 3000 = 65535 ∧
      countsFor ⟨0, 0, 2400, 0, 65535, 0⟩ (-100) = 0 ∧
      countsFor ⟨0, 0, 2400, 60000, 5000, 0⟩ 350 = 51980 ∧
      countsFor ⟨0, 500, 500, 1000, 64000, 0⟩ 350 = 1000 := by decide

/-- Table 4-2, arrivals 1, 2, n and n + 1. -/
theorem test_table_4_2 :
    let l : LoopRec := { LoopRec.resetHeat with mode := .auto, setpoint := 2000 }
    let m : LoopRec := { l with i := 102400, u := 475 }
    ((computeLoop l 1200).i, (computeLoop l 1200).u) = (12800, 1000) ∧
      ((computeLoop (computeLoop l 1200) 1201).i, (computeLoop (computeLoop l 1200) 1201).u) =
        (12800, 1000) ∧
      ((computeLoop m 1985).i, (computeLoop m 1985).u) = (102640, 475) ∧
      ((computeLoop (computeLoop m 1985) 1990).i, (computeLoop (computeLoop m 1985) 1990).u) =
        (102800, 451) := by decide

/-- Table 2-6, conversions 1 and 3 on channel 7. -/
theorem test_table_2_6 :
    let ch : Channel := { Channel.reset with
      stale := false, avgWindow := 200, zeroCorr := 30, ring := [1500, 1510, 1506] }
    let s : State := { State.reset with
      line.speed := 5, meas.channels := upd State.reset.meas.channels 7 ch, meas.converting := some 7 }
    nextHas (exec (.conversionComplete 1498) s)
        (fun t => (t.meas.channels[7]).processed == 1474 &&
          (t.meas.channels[7]).ring == [1500, 1510, 1506, 1498]) = true ∧
      nextHas (exec (.conversionComplete 1780) s)
        (fun t => (t.meas.channels[7]).processed == 1750 && (t.meas.channels[7]).ring == [1780]) =
        true := by decide

/-- Section 2.9, step 3: the capture is clamped to the aperture and raises ZERO_LIMIT, detail 8. -/
theorem test_zero_limit :
    let ch : Channel := { Channel.reset with
      stale := false, avgN := 1, captureBand := 40, motionBand := 5, aperture := 300, zeroCorr := 330,
      ring := [348], lastSecond := List.replicate 10 348 }
    nextHas
      (exec (.conversionComplete 350) { State.reset with
        meas.channels := upd State.reset.meas.channels 8 ch, meas.converting := some 8 })
      (fun t => (t.meas.channels[8]).zeroCorr == 300 && (t.meas.channels[8]).processed == 50 &&
        hasKind t.events.set .zeroLimit) = true := by decide

/-- Section 2.10: PROCESSED of a forced channel (point 50) is written 2000, then 2300. -/
theorem test_forced_write :
    let ch : Channel := { Channel.reset with mode := .forced, stale := false, trim := 5, scale := 2100 }
    let s : State := { State.reset with meas.channels := upd State.reset.meas.channels 3 ch }
    ((writeByNumber 50 2000 s).status, ((writeByNumber 50 2000 s).state.meas.channels[3]).raw) =
        (.ok, 62410) ∧
      ((writeByNumber 50 2300 s).status, ((writeByNumber 50 2300 s).state.meas.channels[3]).raw) =
        (.clamped, 65535) := by decide

/-- Table 7-2: the ratios of band 47. -/
theorem test_table_7_2 :
    [225100, 227900, 223400, 228600, 226000, 221800].map (fun d => ratioOf d 227000) =
      [4062, 4112, 4031, 4125, 4078, 4002] := by decide

/-- Table 8-3: a gain, contributions and the limit factor of lane 3 of band 52. -/
theorem test_table_8_3 :
    gainFor snapshot81 880 862 = 4182 ∧ contribution 4096 4182 = 4182 ∧ contribution 3686 4000 = 3600 ∧
      contribution 2048 4050 = 2025 ∧ contribution 2048 4120 = 2060 ∧
      limitFactor 16384 20037 = 3349 := by decide

/-- Table 8-4: the gains of colour slot 6 at its first node. -/
theorem test_table_8_4 :
    gainFor snapshot81 600 300 = 5120 ∧ gainFor snapshot81 700 0 = 5120 ∧
      gainFor snapshot81 560 550 = 4170 ∧ gainFor snapshot81 600 900 = 3277 ∧
      gainFor snapshot81 400 400 = 4096 := by decide

/-- Section 10.7, steps 1 to 3: GUARD opens in RUNNING, and level 0 answers it; LEVEL_DONE is unreported. -/
theorem test_guard_opens :
    nextHas
      (exec .guardOpens { runningLine with
        line.nip := .closed, pins.nipFb := true, link.sending := some ⟨0, 0, []⟩ })
      (fun t => t.line.mode == .safe && t.line.nip == .opening &&
        t.events.reports == [.event .guard 0 0, .event .modeChange 6 0,
          .reaction 0 (some (.event .guard 0)) 0 .safe] &&
        hasKind t.events.set .levelDone && t.events.fault.mode == some .running) = true := by decide

/-! ## Witnesses of the statements' hypotheses

Each theorem gives, clause by clause, a state and operands that meet the hypotheses of the statement it
names, at the boundary values where a clause has a range. -/

theorem wit_StepRunsFrontCommand :
    ({ State.reset with pending := [.guardCloses] } : State).pending = .guardCloses :: [] ∧
      State.reset.pending = [] ∧ State.reset.react.deferred = [] := by decide

/-- The part without power, and a command that cannot start it. -/
theorem wit_CommandsCompleteAndKeepQueue :
    ({ State.reset with pins.powered := false } : State).runs = false ∧
      startsPart .guardCloses = false := by decide

theorem wit_EncoderSpeedAndDwell :
    let far : State := { State.reset with line.count := 9223372036854775806 }
    let ramp : State := { runningLine with line.reference := 295 }
    let warm : State := { atMode .warming .noPhase with line.dwell := some 20 }
    let u : State := commit ramp { ramp with line.speed := 0, line.sample := 0 }
    (far.runs = true ∧ fits64 (far.line.count + 1) = true ∧
      clampTo (-2147483648) 2147483647 (Int.fdiv (far.line.count + 1) far.line.countsPerMm) ≠
        far.line.position) ∧
    (State.reset.runs = true ∧ fits64 (State.reset.line.count + 39) = true ∧
      clampTo (-2147483648) 2147483647
          (Int.fdiv (State.reset.line.count + 39) State.reset.line.countsPerMm) =
        State.reset.line.position) ∧
    (ramp.runs = true ∧
      fits32 (Int.fdiv ((ramp.line.count - ramp.line.sample) * 100) ramp.line.countsPerMm) = true ∧
      u.line.reference ≠ u.line.target ∧ u.line.mode = .running ∧ u.line.phase = .ramping ∧
      min (u.line.reference + rateOf u.line) u.line.target = u.line.target) ∧
    (State.reset.runs = true ∧ State.reset.line.reference = State.reset.line.target) ∧
    (warm.runs = true ∧ warm.line.mode = .warming ∧ warm.line.dwell ≠ none ∧
      ∀ k : Fin 10, (warm.loops.loops[k]).override = none) ∧
    (let stop : NipState → State := fun n =>
       { atMode .stopping .noPhase with
         line.reference := 5, line.nip := n, line.owner := .action, pins.nipFb := true }
     (stop .closed).runs = true ∧ (stop .closed).line.reference ≠ (stop .closed).line.target ∧
      max (5 - rateOf (stop .closed).line) 0 = (stop .closed).line.target ∧
      (stop .closed).line.mode = .stopping ∧ (stop .closed).line.target = 0 ∧
      (stop .closed).line.liftOnStop = 1 ∧ (stop .closed).line.nip.output = true ∧
      (stop .opened).line.nip.output = false ∧ (stop .closed).line.owner = .action ∧
      ((stop .closed).loops.loops[spanLoop 3]).override = none) := by decide

theorem wit_NipFollowsFeedback :
    let eng : State := { atMode .running .engaging with line.nip := .closing }
    let fb : NipState → LineMode → Bool → State := fun n m b =>
      { atMode m .noPhase with line.nip := n, pins.nipFb := b }
    let u : State := commit eng { record .nipFault 0 eng with line.nip := .opened }
    (eng.runs = true ∧ eng.line.mode = .running ∧ eng.line.phase = .engaging ∧
      eng.pins.nipFb = false ∧ eng.line.nip = .closing ∧ 0 ≤ u.line.vMax ∧ u.line.mode = .running ∧
      u.line.phase = .engaging) ∧
    (State.reset.line.mode ≠ .running ∧ State.reset.line.nip = .opened ∧
      State.reset.pins.nipFb = false) ∧
    ((fb .lost .ready false).line.nip = .lost ∧ (fb .lost .ready false).pins.nipFb = false) ∧
    ((fb .closed .ready true).pins.nipFb = true ∧ (fb .closed .ready true).line.nip = .closed ∧
      (fb .closed .ready true).line.mode ≠ .running) ∧
    ((fb .closed .running true).line.mode = .running ∧ (fb .closed .running true).runs = true) ∧
    ((fb .opening .ready true).line.nip = .opening ∧ (fb .opened .ready true).line.nip = .opened) ∧
    (0 ≤ (fb .lost .running false).line.vMax ∧ (fb .lost .running false).line.mode = .running) ∧
    (let lift : State := { State.reset with
       react.executor := some 15
       react.levels := upd State.reset.react.levels 15
         { Level.ofDef ⟨.noTrigger, true, [.beacon, .lift]⟩ with runPos := some 2 } }
     lift.react.executor = some 15 ∧ (lift.react.levels[(15 : Fin 16)]).runPos = some 2 ∧
      (lift.react.levels[(15 : Fin 16)]).defn.actions[2 - 1]? = some .lift) ∧
    State.reset.react.executor = none := by
  decide

theorem wit_SafetyInputsTaken :
    (State.reset.runs = true ∧ State.reset.pins.estop = false) ∧
    (readyLine.pins.guardClosed = true ∧ readyLine.line.mode = .ready) ∧
    (runningLine.pins.guardClosed = true ∧ runningLine.line.mode = .running ∧
      runningLine.runs = true) := by decide

theorem wit_HeatAndCoolTaken :
    let s := buffered ⟨0x04, 7, [0]⟩ (withLot State.reset)
    let w := buffered ⟨0x04, 7, [1]⟩ (atMode .warming .noPhase)
    (takeable ⟨0x04, 7, [0]⟩ s = true ∧ s.line.mode = .off ∧ s.profiles.current ≠ none ∧
      scannerServesHeat s = true ∧ s.pins.estop = false ∧ s.link.linkSilence ≠ 0 ∧
      ∀ k : Fin 10, (s.loops.loops[k]).override = none) ∧
    (takeable ⟨0x04, 7, [1]⟩ w = true ∧ w.line.mode = .warming) ∧
    (takeable ⟨0x04, 7, [1]⟩ readyLine = true ∧ readyLine.line.mode = .ready) := by decide

theorem wit_RunAndThreadTaken :
    let s := buffered ⟨0x04, 7, [2]⟩ readyLine
    (takeable ⟨0x04, 7, [2]⟩ s = true ∧ s.line.mode = .ready ∧ s.pins.guardClosed = true ∧
      s.pins.estop = false ∧ s.line.nip = .opened ∧ s.pins.nipFb = false) ∧
    (let c : State := { s with line.nip := .closed, pins.nipFb := true }
     takeable ⟨0x04, 7, [2]⟩ c = true ∧ c.line.nip = .closed) ∧
    (let o : State := { s with line.nip := .opening, pins.nipFb := true }
     takeable ⟨0x04, 7, [2]⟩ o = true ∧ o.line.nip = .opening ∧ o.pins.nipFb = true) ∧
    takeable ⟨0x04, 7, [4]⟩ readyLine = true := by decide

theorem wit_StopTakenAndEnded :
    (takeable ⟨0x04, 7, [3]⟩ runningLine = true ∧ runningLine.line.mode = .running ∧
      0 ≤ runningLine.line.vMax) ∧
    (takeable ⟨0x04, 7, [3]⟩ (atMode .threading .noPhase) = true ∧
      (atMode .threading .noPhase).line.mode = .threading) ∧
    ((atMode .stopping .noPhase).line.mode = .stopping ∧
      (atMode .stopping .noPhase).line.reference = 0 ∧
      (atMode .stopping .noPhase).line.liftOnStop = 1) ∧
    ({ atMode .stopping .noPhase with line.liftOnStop := 0 } : State).line.liftOnStop = 0 ∧
    State.reset.line.mode ≠ .stopping := by decide

theorem wit_ClearTaken :
    let safe : State := { atMode .safe .noPhase with pins.guardClosed := true, line.beacon := true }
    (takeable ⟨0x04, 7, [5]⟩ (buffered ⟨0x04, 7, [5]⟩ safe) = true ∧ safe.line.mode = .safe ∧
      safe.pins.estop = false ∧ safe.pins.guardClosed = true ∧ safe.events.fault.kinds = 0) ∧
    (takeable ⟨0x04, 7, [5]⟩ (atMode .safe .noPhase) = true ∧
      (atMode .safe .noPhase).pins.guardClosed = false) ∧
    (takeable ⟨0x04, 7, [5]⟩ State.reset = true ∧ State.reset.line.mode ≠ .safe ∧
      State.reset.line.beacon = false) ∧
    ({ State.reset with line.beacon := true } : State).line.beacon = true := by decide

/-- The values 6 of LINE_CMD and 4 of SCAN_CMD are the first that select no row. -/
theorem wit_LineAndScanRefusals :
    let idle : State := { State.reset with meas.scan := .idle }
    (takeable ⟨0x04, 7, [0]⟩ readyLine = true ∧ readyLine.line.mode ≠ .off) ∧
    (takeable ⟨0x04, 7, [0]⟩ State.reset = true ∧ State.reset.line.mode = .off ∧
      State.reset.profiles.current = none) ∧
    (let s : State := { withLot State.reset with pins.estop := true }
     takeable ⟨0x04, 7, [0]⟩ s = true ∧ s.line.mode = .off ∧ s.profiles.current ≠ none ∧
      s.pins.estop = true) ∧
    scannerServesHeat (withLot idle) = false ∧
    (takeable ⟨0x04, 7, [1]⟩ State.reset = true ∧ takeable ⟨0x04, 7, [2]⟩ State.reset = true ∧
      takeable ⟨0x04, 7, [3]⟩ State.reset = true ∧ takeable ⟨0x04, 7, [4]⟩ State.reset = true ∧
      takeable ⟨0x04, 7, [6]⟩ State.reset = true ∧ 6 ≤ (6 : Byte).toNat ∧
      takeable ⟨0x04, 7, []⟩ State.reset = true) ∧
    (takeable ⟨0x11, 7, [0]⟩ readyLine = true ∧ takeable ⟨0x11, 7, [1]⟩ readyLine = true ∧
      takeable ⟨0x11, 7, [2]⟩ readyLine = true ∧ takeable ⟨0x11, 7, [3, 0, 15, 8]⟩ readyLine = true) ∧
    (4 ≤ (4 : Byte).toNat ∧ takeable ⟨0x11, 7, [4]⟩ State.reset = true ∧
      State.reset.meas.scan ≠ .idle ∧ takeable ⟨0x11, 7, [0]⟩ State.reset = true ∧
      takeable ⟨0x11, 7, [1]⟩ State.reset = true ∧
      takeable ⟨0x11, 7, [3, 0, 15, 8]⟩ State.reset = true) ∧
    (idle.meas.scan = .idle ∧ takeable ⟨0x11, 7, [3, 0, 16, 4]⟩ idle = true ∧
      15 < (16 : Byte).toNat ∧ takeable ⟨0x11, 7, [3, 4, 3, 4]⟩ idle = true ∧
      (3 : Byte).toNat < (4 : Byte).toNat ∧ takeable ⟨0x11, 7, [3, 0, 15, 9]⟩ idle = true ∧
      8 < (9 : Byte).toNat ∧ takeable ⟨0x11, 7, [3, 0, 15, 0]⟩ idle = true ∧
      (0 : Byte).toNat = 0) ∧
    ((3 : Byte).toNat ≠ 5 ∧ (3 : Byte).toNat < 6 ∧ takeable ⟨0x04, 7, [5, 0]⟩ State.reset = true ∧
      [(5 : Byte), 0].length ≠ 1 ∧ takeable ⟨0x04, 7, [255]⟩ State.reset = true) ∧
    (takeable ⟨0x11, 7, []⟩ State.reset = true ∧ takeable ⟨0x11, 7, [3, 0, 15]⟩ State.reset = true ∧
      [(3 : Byte), 0, 15].head? = some 3 ∧ takeable ⟨0x11, 7, [2, 0, 0, 0]⟩ State.reset = true ∧
      takeable ⟨0x11, 7, [4]⟩ readyLine = true ∧ (2 : Byte).toNat ≠ 3 ∧ (2 : Byte).toNat < 4) := by decide

theorem wit_ScanOperationsTaken :
    let idle : State := { State.reset with meas.scan := .idle, meas.converting := none }
    (idle.line.mode = .off ∧ idle.meas.scan = .idle ∧ takeable ⟨0x11, 7, [0]⟩ idle = true ∧
      takeable ⟨0x11, 7, [1]⟩ idle = true ∧ takeable ⟨0x11, 7, [2]⟩ State.reset = true ∧
      takeable ⟨0x11, 7, [3, 15, 15, 8]⟩ (buffered ⟨0x11, 7, [3, 15, 15, 8]⟩ idle) = true ∧
      (15 : Byte).toNat ≤ (15 : Byte).toNat ∧ (15 : Byte).toNat < 16 ∧ 1 ≤ (8 : Byte).toNat ∧
      (8 : Byte).toNat ≤ 8) ∧
    (let s : State := { State.reset with meas.converting := none }
     s.runs = true ∧ s.meas.scan = .continuous ∧ s.meas.converting = none) ∧
    (idle.runs = true ∧ idle.meas.scan ≠ .continuous) := by decide

/-- A capture at the limits of the bands, a window restart just beyond the window, and neither. -/
theorem wit_ConversionChain :
    let c : Channel := { Channel.reset with
      stale := false, avgN := 1, avgWindow := 100, captureBand := 40, motionBand := 5, zeroCorr := 1000,
      ring := [1000], lastSecond := List.replicate 10 1035 }
    1 ≤ c.avgN ∧ c.captureBand ≠ 255 ∧
      |(goodConversion true true c 1040).ring.sum - c.zeroCorr| ≤ c.captureBand ∧
      c.lastSecond.length = 10 ∧ |1040 - c.lastSecond.headD 0| ≤ c.motionBand ∧
      ¬(c.avgWindow < |1040 - meanOf c.ring|) ∧
      (0 < c.avgWindow ∧ c.ring ≠ [] ∧ c.avgWindow < |1101 - meanOf c.ring|) := by decide

/-- Raw values at the four boundaries, and one channel of each mode under way in each scanner state. -/
theorem wit_ConversionCompletes :
    let at' : ChannelMode → ScanState → State := fun m sc => { State.reset with
      meas.channels := upd State.reset.meas.channels 0 { Channel.reset with mode := m }
      meas.scan := sc }
    (∀ sc ∈ [ScanState.continuous, .single, .halting],
      ∀ m ∈ [ChannelMode.normal, .forced, .disabled],
        (at' m sc).runs = true ∧ (at' m sc).meas.converting = some 0 ∧ (at' m sc).meas.scan = sc ∧
          ((at' m sc).meas.channels[(0 : Fin 16)]).mode = m) ∧
    (35 < (36 : BitVec 16).toNat ∧ (65499 : BitVec 16).toNat < 65500 ∧ (35 : BitVec 16).toNat ≤ 35 ∧
      65500 ≤ (65500 : BitVec 16).toNat) := by decide

theorem wit_SilenceAndChannelModes :
    let fresh : State := { State.reset with
      meas.channels := upd State.reset.meas.channels 15 { Channel.reset with stale := false } }
    let forced : State := { State.reset with
      meas.channels := upd State.reset.meas.channels 0 { Channel.reset with mode := .forced } }
    (fresh.runs = true ∧ (fresh.meas.channels[(15 : Fin 16)]).mode = .normal ∧
      (fresh.meas.channels[(15 : Fin 16)]).stale = false) ∧
    (State.reset.line.mode = .off ∧ takeable ⟨0x12, 7, [0, 0]⟩ forced = true ∧
      (forced.meas.channels[(0 : Fin 16)]).mode ≠ .normal ∧
      takeable ⟨0x12, 7, [0, 1]⟩ State.reset = true ∧ takeable ⟨0x12, 7, [15, 2]⟩ State.reset = true ∧
      (State.reset.meas.channels[(15 : Fin 16)]).mode = .normal ∧
      takeable ⟨0x12, 7, [0, 0]⟩ State.reset = true ∧
      (0 : Byte).toNat = (State.reset.meas.channels[(0 : Fin 16)]).mode.code) ∧
    (15 < (16 : Byte).toNat ∧ takeable ⟨0x12, 7, [16, 0]⟩ State.reset = true ∧ 2 < (3 : Byte).toNat ∧
      takeable ⟨0x12, 7, [15, 3]⟩ State.reset = true) ∧
    (runningLine.line.mode = .running ∧ takeable ⟨0x12, 7, [0, 0]⟩ runningLine = true) := by decide

/-- Channels 5, 6, 9 and 10 stand at the ends of the two clauses. -/
theorem wit_ZeroTaken :
    (takeable ⟨0x13, 7, [5]⟩ State.reset = true ∧ (5 : Byte).toNat < 6) ∧
    (takeable ⟨0x13, 7, [10]⟩ State.reset = true ∧ 9 < (10 : Byte).toNat) ∧
    (takeable ⟨0x13, 7, [6]⟩ State.reset = true ∧ (6 : Byte).toNat = (6 : Fin 16).val ∧
      6 ≤ (6 : Fin 16).val ∧ (6 : Fin 16).val ≤ 9) ∧
    (takeable ⟨0x13, 7, [9]⟩ State.reset = true ∧ (9 : Byte).toNat = (9 : Fin 16).val ∧
      6 ≤ (9 : Fin 16).val ∧ (9 : Fin 16).val ≤ 9) := by decide

theorem wit_LoopAndOutputBounds :
    LoopRec.resetHeat.outMin ≤ LoopRec.resetHeat.outMax ∧
      LoopRec.resetTension.outMin ≤ LoopRec.resetTension.outMax ∧
      (AnalogOut.reset 302).fullAt ≠ (AnalogOut.reset 302).zeroAt := by decide

theorem wit_ArrivalsReachConsumers :
    let dry : State := { atMode .warming .noPhase with
      meas.channels := tab fun _ => { Channel.reset with stale := false, processed := 30 } }
    ((5 : Fin 16).val = (5 : Fin 6).val ∧ (6 : Fin 16).val = 6 + (0 : Fin 4).val ∧
      (9 : Fin 16).val = 6 + (3 : Fin 4).val ∧ 10 ≤ (10 : Fin 16).val) ∧
    (dry.line.mode = .warming ∧ dry.line.dwell = none ∧
      ∀ (z : Fin 6) (c : Fin 16), c.val = z.val → (dry.meas.channels[c]).stale = false ∧
        |(dry.meas.channels[c]).processed - (dry.loops.loops[zoneLoop z]).setpoint| ≤
          dry.line.readyBand) ∧
    ({ dry with line.dwell := some 20 } : State).line.dwell ≠ none ∧
    ((atMode .warming .noPhase).meas.channels[(0 : Fin 16)]).stale = true ∧
    State.reset.line.mode ≠ .warming ∧
    (baseMode runningLine 6 = .auto ∧ (runningLine.loops.loops[(6 : Fin 10)]).override = none ∧
      baseMode runningLine 0 ≠ .off ∧ (runningLine.loops.loops[(0 : Fin 10)]).override ≠ some .off ∧
      heldOff State.reset 1 = true) := by decide

/-- A zone at the threshold and one above it; over-temperature left at 50 below it. -/
theorem wit_HeatArrivals :
    let hot : State := { State.reset with
      loops.zones := upd State.reset.loops.zones 0 { Zone.reset with overTemp := true } }
    (State.reset.loops.zones[(0 : Fin 6)]).overTemp = false ∧ State.reset.loops.tAbsMax < 2501 ∧
      (2500 : Int) ≤ State.reset.loops.tAbsMax ∧
      (hot.loops.zones[(0 : Fin 6)]).overTemp = true ∧
      (hot.loops.zones[(0 : Fin 6)]).relLimit = none := by decide

theorem wit_TensionArrivalsAndWebLoss :
    let timing : State := { runningLine with
      loops.spans := upd runningLine.loops.spans 3 { Span.reset with timing := some 500 } }
    (baseMode runningLine (spanLoop 3) = .auto ∧
      (runningLine.loops.loops[spanLoop 3]).override = none ∧
      99 < (runningLine.loops.spans[(3 : Fin 4)]).lossThreshold) ∧
    (timing.runs = true ∧ (timing.loops.spans[(3 : Fin 4)]).timing ≠ none) := by decide

theorem wit_HeaterWindows :
    let on : State := { State.reset with
      loops.zones := upd State.reset.loops.zones 5 { Zone.reset with onTime := some 900 } }
    State.reset.runs = true ∧ on.runs = true ∧ (on.loops.zones[(5 : Fin 6)]).onTime ≠ none := by decide

theorem wit_PointRequestsTaken :
    ((∀ n ∈ [0, 65535], n < 65536) ∧ takeable ⟨0x02, 7, [0, 65535].flatMap (leBytes 2)⟩ State.reset = true ∧
      ∀ n ∈ List.replicate 64 511, n < 65536) ∧
    (takeable ⟨0x02, 7, []⟩ State.reset = true ∧ takeable ⟨0x02, 7, [21]⟩ State.reset = true ∧
      [21].length % 2 ≠ 0 ∧ (List.replicate 130 (0 : Byte)).length > 128) ∧
    (takeable ⟨0x03, 7, [(21, (250 : BitVec 32))].flatMap fun p => leBytes 2 p.1 ++ leBytes 4 p.2.toNat⟩
        State.reset = true ∧ (List.replicate 32 (21, (250 : BitVec 32))).length ≤ 32) ∧
    (takeable ⟨0x03, 7, []⟩ State.reset = true ∧ takeable ⟨0x03, 7, [21, 0, 1]⟩ State.reset = true ∧
      [21, 0, 1].length % 6 ≠ 0 ∧ (List.replicate 198 (0 : Byte)).length > 192) := by decide

theorem wit_PointWritesJudged :
    (Point.ofNumber 307 = none ∧ Point.ofNumber 368 = none) ∧
    (Point.ofNumber 2 = some .webPosition ∧ Point.webPosition.cls = .live) ∧
    (Point.ofNumber 17 = some .pIn ∧ Point.pIn.cls = .guarded ∧ readyLine.line.mode ≠ .off ∧
      State.reset.line.mode = .off) ∧
    ((State.reset.meas.channels[(15 : Fin 16)]).mode ≠ .forced ∧
      96 = 36 + 4 * (15 : Fin 16).val) ∧
    (Point.ofNumber 21 = some .rampRate ∧ Point.rampRate.cls = .setting) ∧
    (let m : State := { State.reset with
       loops.loops := upd State.reset.loops.loops 9 { LoopRec.resetTension with mode := .manual } }
     (m.loops.loops[(9 : Fin 10)]).mode = .manual ∧
       (m.loops.loops[(9 : Fin 10)]).outMin ≤ (m.loops.loops[(9 : Fin 10)]).outMax) ∧
    ((State.reset.loops.loops[(0 : Fin 10)]).mode ≠ .manual ∧
      LoopMode.ofInt (clampTo 0 3 0) = baseMode State.reset 0 ∧
      LoopMode.ofInt (clampTo 0 3 2) ≠ baseMode runningLine 0 ∧ baseMode runningLine 0 ≠ .off ∧
      LoopMode.ofInt (clampTo 0 3 1) ≠ baseMode State.reset 0 ∧ baseMode State.reset 0 = .off) ∧
    (let forced : State := { State.reset with
       meas.channels := upd State.reset.meas.channels 9 { Channel.reset with mode := .forced } }
     (forced.meas.channels[(9 : Fin 16)]).mode = .forced) ∧
    (State.reset.profiles.heat = none ∧
      ({ withLot State.reset with profiles.heat := some ⟨1, 0⟩ } : State).profiles.heat =
        some ⟨1, 0⟩) ∧
    (Point.ofInt 307 = none ∧ Point.ofInt (-1) = none ∧ Point.ofInt 2 = some .webPosition ∧
      chainLeadsTo State.reset 0 6 2 ≠ true ∧ chainLeadsTo State.reset 0 6 315 = true ∧
      (315 : Int) = (Point.outCounts 0).number ∧ ∀ m : Fin 5, (2 : Int) ≠ (Point.outCounts m).number) ∧
    (Point.ofInt (State.reset.loops.outputs[(0 : Fin 5)]).source = some .drumReference ∧
      Point.drumReference ≠ .outCounts 0) := by
  decide

/-- A band whose midpoint stands exactly on the heat place, and one exactly on P_exit. -/
theorem wit_LotsDeclaredAndFound :
    let b : Band := started 16 .onWeb 0
    let s : State := { withQueue [b] runningLine with line.position := 7000 }
    let gone : State := { s with line.position := 12000 }
    (takeable ⟨0x05, 7, [8]⟩ State.reset = true ∧ 8 ≤ (8 : Byte).toNat ∧
      takeable ⟨0x05, 7, [7]⟩ State.reset = true ∧ (7 : Byte).toNat = (7 : Fin 8).val ∧
      State.reset.profiles.fabric[(7 : Fin 8)] = none ∧
      takeable ⟨0x05, 7, [0]⟩ (withLot State.reset) = true ∧
      (withLot State.reset).profiles.fabric[(0 : Fin 8)] ≠ none) ∧
    (s.bands.queue = [] ++ b :: [] ∧ countsAt s 6500 b = true ∧ countsAt s 6501 b = false ∧
      b.start = some 0 ∧ ∀ x ∈ gone.bands.queue, countsAt gone 6500 x = false) ∧
    ((lotAt s (s.line.pIn - s.line.heatLead)).1 = some ⟨1, 0⟩ ∧
      (lotAt s (s.line.pIn - s.line.heatLead)).1 ≠ s.profiles.heat ∧ s.line.heatHold = false ∧
      (lotAt State.reset 6500).1 = State.reset.profiles.heat) ∧
    ((lotAt s s.line.pIn).1 = some ⟨1, 0⟩ ∧ (lotAt s s.line.pIn).1 ≠ s.profiles.nip ∧
      s.line.mode = .running ∧ s.line.phase = .ramping ∧ s.profiles.nip = none ∧
      (lotAt State.reset 9000).1 = State.reset.profiles.nip) := by decide

/-- A name of 16 characters at the ends of the character range, and an absent one. -/
theorem wit_ProfileSlotsWritten :
    let name : List Byte := List.replicate 8 0x20 ++ List.replicate 8 0x7E
    let used : State := withQueue [band 1 .ticketing] State.reset
    (name.length = (16 : Byte).toNat ∧ name.length ≤ 16 ∧ (encColour colour81).length = 276 ∧
      (∀ b ∈ name, 0x20 ≤ b.toNat ∧ b.toNat ≤ 0x7E) ∧ (15 : Byte).toNat = (15 : Fin 16).val ∧
      takeable ⟨0x06, 7, 0 :: 15 :: 16 :: (name ++ encColour colour81)⟩ State.reset = true ∧
      colourInUse State.reset 15 = false) ∧
    (takeable ⟨0x06, 7, 0 :: 0 :: 0 :: ([] ++ encColour colour81)⟩ used = true ∧
      colourInUse used 0 = true) ∧
    ((encFabric fabric145).length = 32 ∧ (7 : Byte).toNat = (7 : Fin 8).val ∧
      takeable ⟨0x06, 7, 1 :: 7 :: 0 :: ([] ++ encFabric fabric145)⟩ State.reset = true ∧
      fabricInUse State.reset 7 = false) ∧
    (takeable ⟨0x06, 7, 1 :: 0 :: 0 :: ([] ++ encFabric fabric145)⟩ used = true ∧
      fabricInUse used 0 = true) ∧
    (takeable ⟨0x08, 7, [0, 15]⟩ State.reset = true ∧ takeable ⟨0x08, 7, [1, 7]⟩ State.reset = true) := by
  decide

/-- A record with fields at both ends of 32 bits. -/
theorem wit_ProfileRecordsRoundTrip :
    let p : ColourProfile := { colour81 with tFloor := -2147483648, dLo := 2147483647 }
    let q : FabricProfile := { fabric145 with tSet := -2147483648, dScorch := 2147483647 }
    (fits32 p.tFloor = true ∧ fits32 p.dLo = true ∧ fits32 p.step = true ∧
      ∀ i : Fin 6, fits32 p.yRef[i] = true ∧ fits32 p.bMax[i] = true ∧
        ∀ k : Fin 9, fits32 (p.nodes[i])[k] = true) ∧
    (fits32 q.tSet = true ∧ fits32 q.vRun = true ∧ (∀ t : Fin 4, fits32 q.tension[t] = true) ∧
      fits32 q.lTotal = true ∧ fits32 q.dScorch = true) := by decide

/-- Lengths 199, 200, 5000 and 5001; a full queue; four TICKETING bands. -/
theorem wit_TicketRequestAccepted :
    let s := buffered ⟨0x09, 7, [0xC8, 0, 0]⟩ (withLot State.reset)
    let cold : State := { withLot State.reset with
      profiles.fabric := tab fun _ => some { fabric145 with tSet := 1500 } }
    (takeable ⟨0x09, 7, [0xC8, 0, 0]⟩ State.reset = true ∧ State.reset.profiles.current = none) ∧
    (takeable ⟨0x09, 7, [0xC8, 0, 16]⟩ (withLot State.reset) = true ∧
      ∀ slot : Fin 16, (16 : Byte).toNat = slot.val →
        (withLot State.reset).profiles.colour[slot] = none) ∧
    (takeable ⟨0x09, 7, [0xC8, 0, 0]⟩ s = true ∧ s.profiles.current = some ⟨1, 0⟩ ∧
      (0 : Byte).toNat = (0 : Fin 16).val ∧ s.profiles.colour[(0 : Fin 16)] = some colour81 ∧
      ((0xC8 : Byte).toNat + 256 * (0 : Byte).toNat : Int) = 200 ∧
      ((0xC7 : Byte).toNat + 256 * (0 : Byte).toNat : Int) < 200 ∧
      ((0x88 : Byte).toNat + 256 * (0x13 : Byte).toNat : Int) = 5000 ∧
      5000 < ((0x89 : Byte).toNat + 256 * (0x13 : Byte).toNat : Int) ∧
      s.bands.queue.length < 64 ∧ ticketingCount s < 4 ∧
      0 < max 0 ((fabricOf s 0).tSet - colour81.tFloor) *
        Int.fdiv (s.line.lWrap * 100) (fabricOf s 0).vRun) ∧
    max 0 ((fabricOf cold 0).tSet - colour81.tFloor) *
      Int.fdiv (cold.line.lWrap * 100) (fabricOf cold 0).vRun ≤ 0 ∧
    64 ≤ (withQueue (List.replicate 64 (band 1 .ticketed)) State.reset).bands.queue.length ∧
    4 ≤ ticketingCount (withQueue (List.replicate 4 (band 1 .ticketing)) State.reset) := by decide

theorem wit_TicketsStartAndComplete :
    let s := withQueue [band 1 .ticketed, band 2 .ticketing] State.reset
    let t : State := { s with engine.inFlight := some ⟨2, snapshot81⟩ }
    (s.engine.inFlight = none ∧ s.bands.queue = [band 1 .ticketed] ++ band 2 .ticketing :: [] ∧
      (band 2 .ticketing).state = .ticketing ∧ ∀ x ∈ [band 1 .ticketed], x.state ≠ .ticketing) ∧
    (∀ b ∈ State.reset.bands.queue, b.state ≠ .ticketing) ∧
    (t.runs = true ∧ t.engine.inFlight = some ⟨2, snapshot81⟩ ∧
      findBand t 2 = some (band 2 .ticketing)) := by decide

/-- A snapshot at the ends of its ranges. -/
theorem wit_TicketWithinLimits :
    let sn : Snapshot := { snapshot81 with
      gMin := 2048, gMax := 8192, lTotal := 4096, colour := { colour81 with step := 1 } }
    2048 ≤ sn.gMin ∧ sn.gMin ≤ sn.gMax ∧ sn.gMax ≤ 8192 ∧ 4096 ≤ sn.lTotal ∧ 1 ≤ sn.colour.step ∧
      ∀ i : Fin 6, 0 ≤ sn.colour.bMax[i] ∧ sn.colour.bMax[i] ≤ 4096 ∧
        ∀ k : Fin 9, 0 ≤ (sn.colour.nodes[i])[k] ∧ (sn.colour.nodes[i])[k] ≤ 1000 ∧
      (let r : Int → Int := fun d => d - snapshot81.colour.dLo - 7 * snapshot81.colour.step
       0 ≤ r 325000 ∧ r 349999 < snapshot81.colour.step ∧
        snapshot81.colour.dLo + 8 * snapshot81.colour.step ≤ 350000) := by decide

/-- The web just short of clearing the newest started band, and just clear of it. -/
theorem wit_BandStarted :
    let q := [started 1 .onWeb 0, band 2 .ticketed, band 3 .ticketing]
    let s : State := { withQueue q runningLine with line.position := 1000 }
    let short : State := { s with line.position := 999 }
    (takeable ⟨0x0A, 7, [2, 0]⟩ State.reset = true ∧ State.reset.line.mode = .off) ∧
    (takeable ⟨0x0A, 7, [2, 0]⟩ (buffered ⟨0x0A, 7, [2, 0]⟩ s) = true ∧ s.line.mode = .running ∧
      findBand s 2 = some (band 2 .ticketed) ∧ (band 2 .ticketed).start = none ∧
      s.bands.queue = [started 1 .onWeb 0] ++ band 2 .ticketed :: [band 3 .ticketing] ∧
      (∀ x ∈ [started 1 .onWeb 0], x.start ≠ none) ∧ webCleared s = true ∧
      webCleared short = false) ∧
    (takeable ⟨0x0A, 7, [4, 0]⟩ s = true ∧ findBand s 4 = none) ∧
    (findBand s 1 = some (started 1 .onWeb 0) ∧ (started 1 .onWeb 0).start ≠ none) ∧
    (findBand s 3 = some (band 3 .ticketing) ∧
      s.bands.queue = [started 1 .onWeb 0, band 2 .ticketed] ++ band 3 .ticketing :: [] ∧
      (∃ x ∈ [started 1 .onWeb 0, band 2 .ticketed], x.start = none) ∧
      ∀ x ∈ [started 1 .onWeb 0, band 2 .ticketed], x.id ≠ 3) ∧
    (let t := withQueue [band 3 .ticketing] runningLine
     t.bands.queue = [] ++ band 3 .ticketing :: [] ∧ (band 3 .ticketing).state ≠ .ticketed) ∧
    (s.bands.queue = [] ++ started 1 .onWeb 0 :: [band 2 .ticketed, band 3 .ticketing] ∧
      ∀ y ∈ [band 2 .ticketed, band 3 .ticketing], y.start = none) ∧
    ∀ x ∈ (withQueue [band 3 .ticketing] runningLine).bands.queue, x.start = none := by decide

theorem wit_BandCancelledOrVoided :
    let s := withQueue [started 1 .onWeb 0, band 2 .ticketed, band 3 .ticketing] runningLine
    let busy : State := { s with engine.inFlight := some ⟨3, snapshot81⟩ }
    (takeable ⟨0x0B, 7, [4, 0]⟩ s = true ∧ findBand s 4 = none) ∧
    (takeable ⟨0x0B, 7, [1, 0]⟩ s = true ∧ findBand s 1 = some (started 1 .onWeb 0) ∧
      (started 1 .onWeb 0).state ≠ .ticketing ∧ (started 1 .onWeb 0).state ≠ .ticketed) ∧
    (takeable ⟨0x0B, 7, [3, 0]⟩ busy = true ∧ findBand busy 3 = some (band 3 .ticketing) ∧
      busy.engine.inFlight = some ⟨3, snapshot81⟩ ∧ (⟨3, snapshot81⟩ : InFlight).band = 3) ∧
    (takeable ⟨0x0B, 7, [2, 0]⟩ s = true ∧ findBand s 2 = some (band 2 .ticketed) ∧
      s.engine.inFlight = none) ∧
    (takeable ⟨0x0C, 7, [4, 0]⟩ s = true ∧ takeable ⟨0x0C, 7, [2, 0]⟩ s = true ∧
      (band 2 .ticketed).state ≠ .onWeb ∧ (band 2 .ticketed).state ≠ .onDrum ∧
      takeable ⟨0x0C, 7, [1, 0]⟩ (buffered ⟨0x0C, 7, [1, 0]⟩ s) = true) := by decide

/-- The midpoint one short of and exactly at P_in, P_out and P_exit. -/
theorem wit_BandFollowsWeb :
    let at' : BandState → Int → State := fun st p =>
      { withQueue [started 1 st 0] State.reset with line.position := p }
    (∀ st ∈ [BandState.onWeb, .onDrum, .settled],
      findBand (at' st 9500) 1 = some (started 1 st 0) ∧ (started 1 st 0).start = some 0 ∧
        0 < (at' st 9500).line.lWrap ∧ 0 ≤ (at' st 9500).line.pExitMargin) ∧
    (let mid : Int → Int := fun p => p - 0 - Int.fdiv 1000 2
     mid 9499 < 9000 ∧ 9000 ≤ mid 9500 ∧ mid 10999 < 9000 + 1500 ∧ 9000 + 1500 ≤ mid 11000 ∧
      mid 11999 < 9000 + 1500 + 1000 ∧ 9000 + 1500 + 1000 ≤ mid 12000) ∧
    (findBand (at' .onWeb 11000) 1 = some (started 1 .onWeb 0) ∧
      findBand (at' .onWeb 12000) 1 = some (started 1 .onWeb 0) ∧
      findBand (at' .onDrum 12000) 1 = some (started 1 .onDrum 0)) := by decide

/-- A band with every lane on target, one with a lane out of range, and one with a barring mark. -/
theorem wit_BandSettles :
    let onTarget : Band := { started 1 .onDrum 0 with acc := some (tab fun _ => 227000) }
    let s := withQueue [onTarget] State.reset
    findBand s onTarget.id = some onTarget ∧
      (∀ z : Fin 6, min 65535
        (Int.fdiv ((accOf onTarget)[z] * 4096 + Int.fdiv onTarget.dTarget 2) onTarget.dTarget) = 4096) ∧
      min 65535 (Int.fdiv (0 * 4096 + Int.fdiv 227000 2) 227000) < (3072 : Int) ∧
      s.bands.doseTol < |(0 : Int) - 4096| ∧
      onTarget.marks.stopped = false ∧ onTarget.marks.lifted = false ∧
      ({ onTarget.marks with void := true } : BandMarks).void = true := by decide

theorem wit_DoseIntegrated :
    let full : Band := { started 1 .onDrum 0 with acc := some (tab fun _ => 8388606) }
    let s : State := { withQueue [full] runningLine with pins.nipFb := true }
    let lifted := withQueue [started 1 .onDrum 0] runningLine
    (findBand s 1 = some full ∧ s.pins.nipFb = true ∧ full.marks.saturated = false ∧
      8388607 ≤ (accOf full)[(0 : Fin 6)] + max 0 (1501 - (colourOf s full.colour).tFloor) ∧
      full.marks.scorched = false ∧ (fabricOf s full.fabric).dScorch ≤ 8388606) ∧
    (findBand lifted 1 = some (started 1 .onDrum 0) ∧ lifted.pins.nipFb = false ∧ (2 : Nat) ≠ 1) := by
  decide

/-- A value at each bound of a condition; a watch in each state; definitions at the bounds of R160. -/
theorem wit_WatchesDefinedAndTripped :
    let d : WatchDef := { source := 66, cond := .outside, lo := 800, hi := 1000, persist := 300 }
    let with' : WatchState → Int → State := fun st p => { State.reset with
      react.watches := upd State.reset.react.watches 15 ⟨{ d with persist := p }, st⟩ }
    let payload : Nat → BitVec 32 → BitVec 32 → BitVec 32 → List Byte := fun src lo hi per =>
      leBytes 1 15 ++ leBytes 2 src ++ leBytes 1 3 ++ leBytes 4 lo.toNat ++ leBytes 4 hi.toNat ++
        leBytes 4 per.toNat
    (d.holds 799 = true ∧ d.holds 800 = false ∧ d.holds 1000 = false ∧ d.holds 1001 = true) ∧
    (((with' .clear 1).react.watches[(15 : Fin 16)]).state = .clear ∧ 0 < (1 : Int) ∧
      ((with' .clear 0).react.watches[(15 : Fin 16)]).defn.persist ≤ 0 ∧
      ((with' .timing 1).react.watches[(15 : Fin 16)]).state = .timing ∧
      (with' .timing 1).runs = true ∧
      ((with' .tripped 1).react.watches[(15 : Fin 16)]).state = .tripped) ∧
    (takeable ⟨0x14, 7, payload 66 800 800 60000⟩ State.reset = true ∧
      Point.ofNumber 66 = some (.chanProcessed 7) ∧ (60000 : BitVec 32).toInt ≤ 60000 ∧
      (800 : BitVec 32).toInt ≤ (800 : BitVec 32).toInt) ∧
    (takeable ⟨0x14, 7, payload 368 0 0 0⟩ State.reset = true ∧ Point.ofNumber 368 = none ∧
      takeable ⟨0x14, 7, payload 66 801 800 0⟩ State.reset = true ∧
      ¬((801 : BitVec 32).toInt ≤ (800 : BitVec 32).toInt) ∧
      takeable ⟨0x14, 7, payload 66 0 0 60001⟩ State.reset = true ∧
      ¬((60001 : BitVec 32).toInt ≤ 60000)) := by decide

/-- A definition with a SET, a COPY and a RAMP at the ends of their ranges, one that is not allowed, and a
level that runs. -/
theorem wit_LevelDefined :
    let f : LevelDef := ⟨.watch 4, true, [.set 21 (-2147483648), .copy 352 511, .ramp 2000 500, .lift]⟩
    let payload : Fin 16 → LevelDef → List Byte := fun l f =>
      leBytes 1 l.val ++ encTrigger f.trigger ++ encFlag f.enable ++ encActions f.actions
    let runs : State := { State.reset with react.executor := some 6 }
    f.actions.length ≤ 4 ∧ takeable ⟨0x16, 7, payload 6 f⟩ State.reset = true ∧ fits32 (-2147483648) = true ∧
      Point.ofNumber 21 = some .rampRate ∧ Point.rampRate.cls = .setting ∧
      Point.ofNumber 352 = some (.user 0) ∧ (Point.user 0).cls = .setting ∧
      Point.ofNumber 511 = none ∧ levelState State.reset 6 ≠ .running ∧
      levelState State.reset 6 ≠ .waiting ∧ levelState runs 6 = .running ∧
      takeable ⟨0x16, 7, payload 6 ⟨.noTrigger, false, [.ramp 2001 1]⟩⟩ State.reset = true ∧
      takeable ⟨0x16, 7, payload 6 ⟨.noTrigger, false, []⟩⟩ runs = true ∧
      takeable ⟨0x16, 7, payload 0 (LevelDef.factory 0)⟩ State.reset = true := by decide

theorem wit_LevelCommandsTaken :
    let level : Bool → Bool → Option Nat → Level := fun en pend pos =>
      { defn := ⟨.noTrigger, en, [.lift]⟩, pending := pend, cause := none, runPos := pos, runCause := none }
    let with' : Level → State := fun x =>
      { State.reset with react.levels := upd State.reset.react.levels 15 x }
    let held : State := { with' (level true false (some 1)) with react.executor := some 15 }
    (15 < (16 : Byte).toNat ∧ takeable ⟨0x18, 7, [0, 16]⟩ State.reset = true ∧
      takeable ⟨0x18, 7, [1, 16]⟩ State.reset = true ∧ takeable ⟨0x18, 7, [2, 16]⟩ State.reset = true) ∧
    ((15 : Byte).toNat = (15 : Fin 16).val ∧ takeable ⟨0x18, 7, [0, 15]⟩ State.reset = true ∧
      takeable ⟨0x18, 7, [1, 0]⟩ State.reset = true ∧ (0 : Byte).toNat = (0 : Fin 16).val ∧
      takeable ⟨0x18, 7, [1, 15]⟩ held = true ∧ levelState held 15 = .running ∧
      levelState (with' (level true false none)) 15 = .armed ∧
      levelState (with' (level true true none)) 15 = .waiting ∧
      levelState (with' (level false false none)) 15 = .dormant ∧
      levelState (with' (level false true none)) 15 = .posted ∧
      takeable ⟨0x18, 7, [2, 15]⟩ State.reset = true) ∧
    (takeable ⟨0x18, 7, [3, 0]⟩ State.reset = true ∧ State.reset.react.lock = false ∧
      State.reset.react.executor = none ∧ takeable ⟨0x18, 7, [3, 0]⟩ held = true ∧
      held.react.executor = some 15 ∧ (15 : Fin 16).val ≠ 0) ∧
    (let locked : State := { State.reset with react.lock := true }
     locked.react.lock = true ∧ takeable ⟨0x18, 7, [3, 0]⟩ locked = true ∧
       takeable ⟨0x18, 7, [4, 0]⟩ locked = true ∧ takeable ⟨0x18, 7, [4, 0]⟩ State.reset = true) := by
  decide

/-- Level 5 holds the executor at its RAMP; level 4's run is past its last action. -/
theorem wit_LevelsTriggeredAndRun :
    let x : Level := ⟨⟨.watch 7, true, [.ramp 150 30]⟩, true, some (.watch 7), some 1, some (.watch 7)⟩
    let s : State := { runningLine with
      line.owner := .action
      react.levels := upd (upd State.reset.react.levels 5 x) 4 { x with runPos := some 2 }
      react.executor := some 5 }
    (s.react.executor = some 5 ∧ runningAction s = some (.ramp 150 30) ∧ s.line.owner = .action) ∧
    ((s.react.levels[(5 : Fin 16)]).runPos = some 1 ∧
      (s.react.levels[(5 : Fin 16)]).defn.actions[1 - 1]? = some (.ramp 150 30) ∧
      actionWaits (.ramp 150 30) (publish s (startAction 5 (.ramp 150 30) s)) = true) ∧
    ((s.react.levels[(4 : Fin 16)]).runPos = some 2 ∧
      (s.react.levels[(4 : Fin 16)]).defn.actions.length < 2) ∧
    (s.react.levels[(0 : Fin 16)]).runPos = none ∧
    (Level.ofDef ⟨.noTrigger, true, [.beacon]⟩).defn.actions[1 - 1]? = some .beacon ∧
    actionWaits .beacon (publish s (startAction 5 .beacon s)) = false ∧
    State.reset.react.executor = none := by decide

/-- With no level WAITING there is no winner; level 2 waits in vain below level 1's run. -/
theorem wit_AuctionsLeaveNoClaim :
    let x : Level := ⟨⟨.noTrigger, true, []⟩, true, some .fire, none, none⟩
    let ramp : Level := ⟨⟨.noTrigger, true, [.ramp 150 30]⟩, false, none, some 1, some .fire⟩
    let s : State := { runningLine with
      line.owner := .action
      react.levels := upd (upd State.reset.react.levels 2 x) 1 ramp
      react.executor := some 1 }
    (auctionWinner State.reset = none) ∧
    (auctionWinner s = some 2 ∧ s.react.executor = some 1 ∧ (1 : Fin 16) ≤ 2 ∧
      levelState (auction s) 2 = .waiting ∧ (auction s).react.lock = false) ∧
    (let free : State := { s with react.executor := none }
     auctionWinner free = some 1 ∧ free.react.executor = none) ∧
    (let lower : State := { s with react.levels := upd s.react.levels 0 x }
     auctionWinner lower = some 0 ∧ lower.react.executor = some 1 ∧ (0 : Fin 16) < 1) := by decide

theorem wit_ActionsTaken :
    (Point.ofNumber 21 = some .rampRate ∧ Point.rampRate.cls = .setting ∧
      Point.ofNumber 66 = some (.chanProcessed 7)) ∧
    (0 ≤ runningLine.line.vMax ∧ runningLine.line.mode = .running ∧ runningLine.line.phase = .ramping ∧
      (atMode .threading .noPhase).line.mode = .threading ∧
      (atMode .running .engaging).line.phase = .engaging ∧ State.reset.line.mode ≠ .running ∧
      State.reset.line.mode ≠ .threading) ∧
    (State.reset.line.nip = .opened ∧
      (let c : State := { runningLine with line.nip := .closing }
       c.line.nip.output = true ∧ c.pins.nipFb = false)) ∧
    ((atMode .safe .noPhase).line.mode = .safe ∧ runningLine.line.mode ≠ .safe ∧
      State.reset.line.mode = .off ∧ State.reset.link.linkSilence ≠ 0) ∧
    (let closed : State := { runningLine with
       line.nip := .closed, pins.nipFb := true, line.owner := .action }
     closed.line.nip.output = true ∧ closed.pins.nipFb = true ∧ closed.line.reference ≠ 0 ∧
      closed.line.owner = .action ∧ ({ closed with line.reference := 0 } : State).line.reference = 0 ∧
      ({ closed with line.nip := .opening } : State).line.nip = .opening) := by decide

/-- An empty and a standing fault record; a queue of 31 and one of 32 reports. -/
theorem wit_OccurrencesTaken :
    let r : Report := .event .estop 0 0
    let sent : State := { State.reset with link.sending := some ⟨0, 0, []⟩ }
    let full : State := { sent with events.reports := List.replicate 32 r }
    (EventKind.guard = .guard ∧ State.reset.events.fault.kinds = 0) ∧
    ({ State.reset with events.fault.kinds := 1 } : State).events.fault.kinds ≠ 0 ∧
    (hasKind State.reset.events.mask .ticketDone = false ∧
      hasKind State.reset.events.mask .guard = true) ∧
    (({ sent with events.reports := List.replicate 31 r } : State).events.reports.length < 32 ∧
      sent.link.sending ≠ none) ∧
    (State.reset.events.reports = [] ∧ State.reset.link.sending = none ∧ State.reset.link.slot = none ∧
      State.reset.events.owed = false) ∧
    32 ≤ full.events.reports.length ∧
    (EventKind.guard ≠ .reportsDropped ∧ full.link.sending ≠ none ∧ full.events.owed = false ∧
      ({ full with events.owed := true } : State).events.owed = true) ∧
    (let s : State := { State.reset with react.deferred := [.occurrence .modeChange 1] }
     s.react.deferred = [.occurrence .modeChange 1] ∧ 1 ≤ 2 ^ 64 ∧
      (takeOffers 1 s).react.deferred = []) := by decide

/-- R182, R176: an ESTOP behind 70 other offers is taken in the same step, and none waits after it. -/
theorem test_many_offers :
    let s := settle { State.reset with
      react.deferred := List.replicate 70 (.occurrence .ticketDone 1) ++ [.occurrence .estop 0] }
    s.line.mode = .safe ∧ s.react.deferred = [] := by decide

/-- Lanes 6 and 7; a set with every kind, and the first that names a kind outside 1 to 23. -/
theorem wit_ClearingRequests :
    (takeable ⟨0x10, 7, [7]⟩ State.reset = true ∧ 6 < (7 : Byte).toNat ∧
      takeable ⟨0x10, 7, [6]⟩ State.reset = true ∧ (6 : Byte).toNat ≤ 6) ∧
    (takeable ⟨0x1A, 7, leBytes 4 (0x7FFFFF : BitVec 23).toNat⟩ State.reset = true ∧
      takeable ⟨0x1B, 7, leBytes 4 (0x7FFFFF : BitVec 23).toNat⟩ State.reset = true) ∧
    (2 ^ 23 ≤ (0x800000 : BitVec 32).toNat ∧
      takeable ⟨0x1A, 7, leBytes 4 (0x800000 : BitVec 32).toNat⟩ State.reset = true ∧
      takeable ⟨0x1B, 7, leBytes 4 (0x800000 : BitVec 32).toNat⟩ State.reset = true) ∧
    takeable ⟨0x1D, 7, []⟩ State.reset = true := by decide

/-- A part whose fault record holds GUARD, as in section 10.7. -/
def faulted : State :=
  { readyLine with
    events.fault := { kinds := 2, first := some .guard, locus := some .noLocus, mode := some .running,
                      position := some 120400 } }

theorem wit_FaultRecordKeepsFirst :
    nextHas (exec .estopActive faulted) (fun t => t.events.fault.kinds == 3) = true ∧
      faulted.events.fault.kinds ≠ 0 ∧ isFaultClear .estopActive = false ∧
      losesFaultRecord .estopActive = false := by decide

/-- A part that sends a frame, with a reply in the slot and a HELLO waiting. -/
def helloWaits (s : State) : State :=
  { s with
    link.sending := some ⟨0x99, 1, [0]⟩, link.slot := some ⟨0x99, 2, [0]⟩, link.buffer := [⟨0x01, 7, []⟩] }

/-- What the end of the frame lets the link take there. -/
theorem mayTake_helloWaits {s : State} {f : Frame} (h : mayTake .transmitComplete (helloWaits s) f) :
    f = ⟨0x01, 7, []⟩ := by
  simpa [mayTake, helloWaits] using h

/-- FaultRecordKeepsFirst at a command that lets the link take a frame, and at one that does not. -/
theorem wit_FaultRecordKeepsFirst_frames :
    (∀ f, mayTake .estopActive faulted f → isFaultClear (requestOf f) = false) ∧
    (∀ f, mayTake .transmitComplete (helloWaits faulted) f → isFaultClear (requestOf f) = false) ∧
    (helloWaits faulted).events.fault.kinds ≠ 0 ∧
    nextHas (exec .transmitComplete (helloWaits faulted)) (fun t => t.link.buffer == []) = true :=
  ⟨fun _ h => h.elim, fun _ h => mayTake_helloWaits h ▸ by decide, by decide, by decide⟩

theorem wit_ReadingRequestsAnswered :
    let s := withQueue [band 1 .ticketed] State.reset
    (takeable ⟨0x01, 7, []⟩ (buffered ⟨0x01, 7, []⟩ s) = true ∧
      takeable ⟨0x0E, 7, []⟩ s = true ∧ takeable ⟨0x0F, 7, []⟩ s = true ∧
      takeable ⟨0x19, 7, []⟩ s = true ∧ takeable ⟨0x1C, 7, []⟩ s = true) ∧
    (takeable ⟨0x07, 7, [0, 0]⟩ s = true ∧ s.profiles.colour[(0 : Fin 16)] = some colour81 ∧
      takeable ⟨0x07, 7, [0, 15]⟩ s = true ∧ (15 : Byte).toNat = (15 : Fin 16).val ∧
      s.profiles.colour[(15 : Fin 16)] = none) ∧
    (takeable ⟨0x07, 7, [1, 0]⟩ s = true ∧ s.profiles.fabric[(0 : Fin 8)] = some fabric145 ∧
      takeable ⟨0x07, 7, [1, 7]⟩ s = true ∧ s.profiles.fabric[(7 : Fin 8)] = none) ∧
    (takeable ⟨0x0D, 7, [1, 0]⟩ s = true ∧ findBand s 1 = some (band 1 .ticketed) ∧
      takeable ⟨0x0D, 7, [0xFF, 0xFF]⟩ s = true ∧ findBand s 65535 = none) ∧
    ((15 : Byte).toNat = (15 : Fin 16).val ∧ takeable ⟨0x15, 7, [15]⟩ s = true ∧
      takeable ⟨0x17, 7, [15]⟩ s = true) := by decide

theorem wit_FramesReceived :
    let f : Frame := ⟨0x01, 7, []⟩
    let full : State := { State.reset with link.buffer := [f, f, f, f] }
    (State.reset.runs = true ∧ State.reset.link.receiver = .hunting ∧ f.payload.length ≤ 1024 ∧
      State.reset.link.buffer.length < 4) ∧
    (full.runs = true ∧ full.link.receiver = .hunting ∧ 4 ≤ full.link.buffer.length) ∧
    (List.replicate 1024 (0 : Byte)).length ≤ 1024 ∧
    (State.reset.link.buffer = [] ∧ (buffered f State.reset).link.buffer = f :: [] ∧
      takeable f (buffered f State.reset) = true ∧ takeable f (helloWaits State.reset) = false ∧
      (helloWaits State.reset).link.buffer = f :: []) ∧
    (takeable f busyLink = false ∧ busyLink.runs = true ∧ busyLink.link.buffer.length < 4 ∧
      takeable f { busyLink with link.buffer := [f, f, f, f] } = false) ∧
    (6 ≤ (6 : Byte).toNat ∧ 4 ≤ (4 : Byte).toNat ∧ 5 ≤ (5 : Byte).toNat ∧ (0 : Byte).toNat = 0 ∧
      0x1F < (0x20 : Byte).toNat) := by decide

/-- A length of 1025, a check of 0, and a gap inside a frame. -/
theorem wit_FrameFailuresAndSilence :
    let armed : State := { State.reset with link.silence := some 2000, link.silenceArmed := true }
    (State.reset.runs = true ∧ State.reset.link.receiver = .hunting ∧ (0xA4 : Byte) ≠ 0xA5 ∧
      1024 < (1 : Byte).toNat + 256 * (4 : Byte).toNat ∧
      (0 : Byte).toNat + 256 * (0 : Byte).toNat ≠ (crc (Frame.body ⟨0x01, 7, []⟩)).toNat) ∧
    ({ State.reset with link.receiver := .inside [1] } : State).link.receiver = .inside [1] ∧
    (armed.runs = true ∧ armed.link.silence ≠ none ∧ armed.link.silenceArmed = true) ∧
    (State.reset.link.silence = none ∧ State.reset.link.silenceArmed = false) := by decide

/-- The kinds 0 and 0x20 stand next to the request kinds. -/
theorem wit_RestartAndUnknownRequests :
    let busy : State := { State.reset with nvm.writing := some 0 }
    (takeable ⟨0x1F, 7, []⟩ (buffered ⟨0x1F, 7, []⟩ State.reset) = true ∧
      State.reset.nvm.writing = none ∧ takeable ⟨0x1F, 7, []⟩ busy = true ∧ busy.nvm.writing ≠ none ∧
      takeable ⟨0x1F, 7, [0]⟩ State.reset = true ∧ [(0 : Byte)] ≠ []) ∧
    ({ State.reset with link.restarting := true } : State).link.restarting = true ∧
    ((0 : Byte).toNat = 0 ∧ takeable ⟨0, 7, []⟩ State.reset = true ∧ 0x1F < (0x20 : Byte).toNat ∧
      takeable ⟨0x20, 7, []⟩ State.reset = true) := by decide

theorem wit_TransmitterTakesReplyFirst :
    let s : State := { State.reset with link.sending := some ⟨0x9F, 7, [0]⟩ }
    let r : Report := .event .estop 0 0
    (s.runs = true ∧ s.link.sending = some ⟨0x9F, 7, [0]⟩ ∧
      ({ s with link.restarting := true } : State).link.restarting = true) ∧
    (s.link.restarting = false ∧ s.link.slot = none ∧ s.events.reports = []) ∧
    ({ s with link.slot := some ⟨0x81, 7, [0]⟩ } : State).link.slot = some ⟨0x81, 7, [0]⟩ ∧
    (({ s with events.reports := [r] } : State).events.reports = r :: [] ∧ s.events.owed = false ∧
      ({ s with events.owed := true } : State).events.owed = true) ∧
    (State.reset.pins.estop = false ∧
      ({ s with link.restarting := true, pins.estop := true } : State).pins.estop = true) := by decide

/-- Contents as factory settings, for the images below. -/
def contents : Contents where
  points := []
  colour := tab fun _ => none
  fabric := tab fun _ => none
  watches := tab fun _ => WatchDef.factory
  levels := tab LevelDef.factory
  mask := factoryMask

/-- An image whose check agrees. -/
def good (g : Nat) : Place := .image g contents (imageCheck g contents)

theorem good_valid (g : Nat) : (good g).valid = some (g, contents) := Place.valid_image g contents

/-- Generations at the last number, and below it. -/
theorem wit_StoreWritesOtherPlace :
    let placed : Nat → State := fun g => { State.reset with
      nvm.places := upd State.reset.nvm.places 0 (good g), nvm.current := some 0 }
    let busy : State := { State.reset with
      nvm.places := upd State.reset.nvm.places 1 (.image 1 contents 0), nvm.writing := some 1 }
    (takeable ⟨0x1E, 7, []⟩ readyLine = true ∧ readyLine.line.mode ≠ .off) ∧
    (takeable ⟨0x1E, 7, []⟩ busy = true ∧ busy.line.mode = .off ∧ busy.nvm.writing ≠ none) ∧
    (takeable ⟨0x1E, 7, []⟩ (buffered ⟨0x1E, 7, []⟩ State.reset) = true ∧
      State.reset.line.mode = .off ∧ State.reset.nvm.writing = none ∧
      State.reset.nvm.current = none) ∧
    (takeable ⟨0x1E, 7, []⟩ (placed 4294967295) = true ∧ (placed 4294967295).nvm.writing = none ∧
      (placed 4294967295).nvm.current = some 0 ∧ (0 : Fin 2) ≠ 1) ∧
    (∀ g, (placed g).nvm.places[(0 : Fin 2)] = .image g contents (imageCheck g contents)) ∧
    (busy.runs = true ∧ busy.nvm.writing = some 1) ∧
    busy.nvm.places[(1 : Fin 2)] = .image 1 contents 0 := by
  refine ⟨by decide, by decide, by decide, by decide, fun _ => rfl, by decide, rfl⟩

/-- Successors, the successor of the last generation, and generations that do not follow each other. -/
theorem wit_StartLoadsCurrentImage :
    let places : Nat → Nat → Vector Place 2 := fun g h => upd (tab fun _ => good g) 1 (good h)
    (∀ g h, (places g h)[(0 : Fin 2)] = .image g contents (imageCheck g contents) ∧
      (places g h)[(1 : Fin 2)] = .image h contents (imageCheck h contents)) ∧
    (12 = 11 + 1 ∧ (11 : Nat) ≠ 12 + 1 ∧ ¬((12 : Nat) = 4294967295 ∧ (11 : Nat) = 1) ∧
      (3 : Nat) < 7 ∧ (3 : Nat) ≠ 7 + 1 ∧ (7 : Nat) ≠ 3 + 1) ∧
    (State.reset.nvm.places[(0 : Fin 2)] = .blank ∧ State.reset.nvm.places[(1 : Fin 2)] = .blank ∧
      currentContents State.reset.nvm.places = none) ∧
    (upd State.reset.nvm.places 1 (good 9))[(0 : Fin 2)] = .blank ∧
    currentContents (upd State.reset.nvm.places 1 (good 9)) = some contents ∧
    currentContents (places 12 11) = some contents ∧
    currentContents (places 4294967295 1) = some contents := by
  refine ⟨fun _ _ => ⟨rfl, rfl⟩, by decide, by decide, rfl, ?_, ?_, ?_⟩ <;>
    simp [currentContents, currentPlace, newerPlace, follows, upd, good_valid, Config.lastGeneration,
      State.reset, SettingsStore.reset]

/-- Contents with a value for every stored point, above the ranges of them all. -/
def fullContents : Contents :=
  { contents with points := storedPoints.map fun p => (p.number, 2147483647) }

/-- A current image that holds every stored point. -/
theorem wit_StartLoadsCurrentImage_points :
    currentContents (upd State.reset.nvm.places 1
        (.image 9 fullContents (imageCheck 9 fullContents))) = some fullContents ∧
      fullContents.points =
        storedPoints.map (fun p => (p.number, (fun _ => 2147483647 : Point → Int) p)) ∧
      Point.rampRate ∈ storedPoints := by
  refine ⟨?_, rfl, ?_⟩
  · simp [currentContents, currentPlace, upd, Place.valid_image, State.reset, SettingsStore.reset]
  · simp only [storedPoints, List.mem_filter, List.mem_filterMap, List.mem_range]
    exact ⟨⟨21, by decide, by decide⟩, by decide⟩

theorem wit_PartStartsAndResets :
    let held : State := { State.reset with pins.resetActive := true }
    (State.reset.pins.resetActive = false ∧ currentContents State.reset.nvm.places = none ∧
      State.reset.pins.estop = false ∧
      ({ State.reset with pins.estop := true } : State).pins.estop = true) ∧
    (held.pins.powered = true ∧ held.pins.resetActive = true ∧ held.pins.estop = false) ∧
    (runningLine.pins.powered = true ∧ runningLine.pins.resetActive = false) ∧
    ({ held with pins.estop := true } : State).pins.estop = true := by decide

/-- The speed reference moves on the drum drive's output, and on nothing when it stands. -/
theorem wit_PointsHandedOver :
    let moved : State := { State.reset with line.reference := 330 }
    (∀ m : Fin 5, ∀ q : Fin 5,
        (moved.loops.outputs[m]).source ≠ (Point.outCounts q).number) ∧
      (moved.loops.outputs[(0 : Fin 5)]).source = Point.drumReference.number ∧
      readPoint State.reset .drumReference ≠ readPoint moved .drumReference ∧
      (moved.loops.outputs[(1 : Fin 5)]).source = (Point.spanReference 0).number ∧
      readPoint moved (.spanReference 0) = readPoint { moved with line.feed := true } (.spanReference 0) ∧
      moved.react.deferred = [] ∧
      (let watched : State := { moved with
         react.watches := upd State.reset.react.watches 15 ⟨⟨4, .above, 0, 300, 0⟩, .clear⟩ }
       (watched.react.watches[(15 : Fin 16)]).defn.source = Point.speedReference.number ∧
        readPoint State.reset .speedReference ≠ readPoint watched .speedReference ∧
        (watched.react.watches[(15 : Fin 16)]).state ≠ .tripped ∧
        ((publishArrival none State.reset watched).react.watches[(15 : Fin 16)]).state = .tripped) ∧
      (let onChannel : State := { State.reset with
         react.watches := upd State.reset.react.watches 15 ⟨⟨39, .above, 0, 300, 0⟩, .clear⟩ }
       (onChannel.react.watches[(15 : Fin 16)]).defn.source = (Point.chanStatus 0).number ∧
        readPoint onChannel (.chanStatus 0) = readPoint State.reset (.chanStatus 0)) := by decide

/-! The invariants hold of a busy state, from which the next step is taken. -/

/-- A part that runs, with a band on the drum, a lot, a report queued and a command waiting. -/
def busyPart : State :=
  { withQueue [started 1 .onDrum 0, band 2 .ticketed] runningLine with
    bands.history := tab fun _ => [⟨3072, 9⟩, ⟨5120, 10⟩]
    events.reports := [.event .estop 0 0]
    pending := [.guardOpens] }

/-- The next step of the busy part answers a next state. -/
theorem wit_step_busyPart : nextHas (step busyPart) (fun t => t.line.mode == .safe) = true := by decide

theorem wit_HeatersHeldKept : HeatersHeld busyPart := by unfold HeatersHeld; decide

theorem wit_LineRestKept : LineRest busyPart := by constructor <;> decide

theorem wit_QueueAndSlotsKept : QueueKept busyPart ∧ SlotsOccupied busyPart := by
  refine ⟨by constructor <;> decide, by decide, by decide, ?_, ?_, ?_⟩
  · intro l h
    have e : busyPart.profiles.current = some ⟨1, 0⟩ := by decide
    rw [e] at h; cases h; decide
  · intro l h
    have e : busyPart.profiles.heat = none := by decide
    rw [e] at h; cases h
  · intro l h
    have e : busyPart.profiles.nip = none := by decide
    rw [e] at h; cases h

theorem wit_CapacitiesKept : WithinCapacity busyPart ∧ HistoryKept busyPart := by
  refine ⟨by constructor <;> decide, ?_⟩
  unfold HistoryKept; decide

theorem wit_CapacitiesKept_link : LinkServed (helloWaits busyPart) := by constructor <;> decide

/-- The lock is set, and level 0 holds the executor. -/
theorem wit_LockHonouredKept :
    let s : State := { busyPart with react.lock := true, react.executor := some 0 }
    s.react.lock = true ∧ LockHonoured s := by
  refine ⟨by decide, fun _ w h => ?_⟩
  cases h; rfl

theorem wit_SafeLeftByClearAlone :
    let s := atMode .safe .noPhase
    s.line.mode = .safe ∧ isLineClear .guardCloses = false ∧ startsPart .guardCloses = false ∧
      nextHas (exec .guardCloses s) (fun t => t.line.mode == .safe) = true := by decide

theorem wit_SafeLeftByClearAlone_frames :
    let s := helloWaits (atMode .safe .noPhase)
    (∀ f, mayTake .guardCloses s f → isLineClear (requestOf f) = false) ∧
    (∀ f, mayTake .transmitComplete s f → isLineClear (requestOf f) = false) ∧
    isLineClear .transmitComplete = false ∧ s.link.restarting = false ∧ s.line.mode = .safe ∧
    nextHas (exec .transmitComplete s) (fun t => t.link.buffer == []) = true :=
  ⟨fun _ h => h.elim, fun _ h => mayTake_helloWaits h ▸ by decide, by decide, by decide, by decide,
    by decide⟩

theorem wit_NamedProfilesUnchanged :
    nextHas (exec (.profileErase 7 [0, 15]) busyPart)
      (fun t => t.bands.queue.length == 2 && t.bands.queue == busyPart.bands.queue) = true := by decide

theorem wit_NamedProfilesUnchanged_frames :
    (∀ f, mayTake (.profileErase 7 [0, 15]) busyPart f → writesProfiles (requestOf f) = false) ∧
    (∀ f, mayTake .transmitComplete (helloWaits busyPart) f → writesProfiles (requestOf f) = false) ∧
    nextHas (exec .transmitComplete (helloWaits busyPart)) (fun t => t.bands.queue.length == 2) = true :=
  ⟨fun _ h => h.elim, fun _ h => mayTake_helloWaits h ▸ by decide, by decide⟩

/-- The three statements about frames, at a command that brings the bytes of one. -/
theorem wit_frames_in_bytes (f : Frame) (h : mayTake (.frameReceived helloBytes) State.reset f) :
    isFaultClear (requestOf f) = false ∧ isLineClear (requestOf f) = false ∧
      writesProfiles (requestOf f) = false := by
  have hb : f.body <:+: helloBytes := h.elim (fun e => absurd e List.not_mem_nil) id
  have hk : f.kind ∈ helloBytes := hb.subset (by simp [Frame.body])
  obtain ⟨k, t, p⟩ := f
  simp only [helloBytes, List.mem_cons, List.not_mem_nil, or_false] at hk
  rcases hk with rfl | rfl | rfl | rfl | rfl | rfl | rfl <;> exact ⟨rfl, rfl, rfl⟩

end Sys2Proof.Tests
end

namespace Sys2Proof.Machine

/-! ## Heaters held off -/

/-- R205: a part that does not run drives no zone. -/
def IdleZonesOff (s : State) : Prop :=
  s.runs = false → ∀ z : Fin 6, (s.loops.zones[z]).active = 0 ∧ (s.loops.zones[z]).heaterOn = false

theorem HeatersHeld.idleZonesOff {s : State} (h : HeatersHeld s) : IdleZonesOff s :=
  fun hr z => h z (.inr hr)

/-- A change that holds off no further zone, and leaves duties and heater pins, keeps the zones held. -/
theorem HeatersHeld.of_held {s t : State} (h : HeatersHeld s) (pins : t.runs = false → s.runs = false)
    (held : ∀ z : Fin 6, heldOff t z = true → heldOff s z = true)
    (zones : ∀ z : Fin 6, (t.loops.zones[z]).active = (s.loops.zones[z]).active ∧
      (t.loops.zones[z]).heaterOn = (s.loops.zones[z]).heaterOn) : HeatersHeld t := by
  intro z hz
  rw [(zones z).1, (zones z).2]
  exact h z (hz.imp (held z) pins)

/-- The pins, the zones' records and the modes and stale marks of the heat loops decide what is held. -/
theorem HeatersHeld.of_records {s t : State} (h : HeatersHeld s) (pins : t.pins = s.pins)
    (loops : ∀ z : Fin 6, (t.loops.loops[zoneLoop z]).mode = (s.loops.loops[zoneLoop z]).mode ∧
      (t.loops.loops[zoneLoop z]).stale = (s.loops.loops[zoneLoop z]).stale)
    (zones : ∀ z : Fin 6, (t.loops.zones[z]).overTemp = (s.loops.zones[z]).overTemp ∧
      (t.loops.zones[z]).active = (s.loops.zones[z]).active ∧
      (t.loops.zones[z]).heaterOn = (s.loops.zones[z]).heaterOn) : HeatersHeld t := by
  refine h.of_held (fun hr => ?_) (fun z hz => ?_) (fun z => (zones z).2)
  · rwa [State.runs, pins] at hr
  · rwa [heldOff, (loops z).1, (loops z).2, (zones z).1, pins] at hz

theorem HeatersHeld.of_loops {s t : State} (h : HeatersHeld s) (pins : t.pins = s.pins)
    (loops : t.loops = s.loops) : HeatersHeld t :=
  h.of_records pins (fun k => by rw [loops]; exact ⟨rfl, rfl⟩)
    (fun z => by rw [loops]; exact ⟨rfl, rfl, rfl⟩)

theorem enforceHold_zone (s : State) (z : Fin 6) : (enforceHold s).loops.zones[z] = holdZone s z := by
  simp [enforceHold]

theorem holdZone_overTemp (s : State) (z : Fin 6) :
    (holdZone s z).overTemp = (s.loops.zones[z]).overTemp := by
  unfold holdZone
  split <;> rfl

theorem heldOff_enforceHold (s : State) (z : Fin 6) : heldOff (enforceHold s) z = heldOff s z := by
  have e : ((enforceHold s).loops.zones[z]).overTemp = (s.loops.zones[z]).overTemp := by
    rw [enforceHold_zone, holdZone_overTemp]
  unfold heldOff
  rw [e]
  rfl

/-- R74: a hold that is enforced turns the zones held off at once. -/
theorem enforceHold_heatersHeld {s : State} (h : IdleZonesOff s) : HeatersHeld (enforceHold s) := by
  intro z hz
  rw [heldOff_enforceHold] at hz
  rw [enforceHold_zone, holdZone]
  split
  · exact ⟨rfl, rfl⟩
  · next hn => exact h (hz.resolve_left hn) z

theorem takeMode_zones (k : Fin 10) (m : LoopMode) (s : State) :
    (takeMode k m s).loops.zones = s.loops.zones := by
  unfold takeMode rearmSpan
  split
  · rfl
  · split
    · rfl
    · split <;> rfl

theorem refreshLoop_zones (s : State) (k : Fin 10) :
    (refreshLoop s k).loops.zones = s.loops.zones := by
  unfold refreshLoop
  dsimp only
  split
  · exact takeMode_zones ..
  · split <;> exact takeMode_zones ..

theorem IdleZonesOff.of_zones {s t : State} (h : IdleZonesOff s) (pins : t.pins = s.pins)
    (zones : t.loops.zones = s.loops.zones) : IdleZonesOff t := by
  unfold IdleZonesOff State.runs
  rw [pins, zones]
  exact h

theorem refreshLoop_idleZonesOff {s : State} (h : IdleZonesOff s) (k : Fin 10) :
    IdleZonesOff (refreshLoop s k) :=
  h.of_zones (refreshLoop_frame s k).pins (refreshLoop_zones s k)

theorem modifyLoop_idleZonesOff {s : State} (h : IdleZonesOff s) (k : Fin 10) (f : LoopRec → LoopRec) :
    IdleZonesOff (modifyLoop k f s) := h

theorem refreshLoops_heatersHeld {s : State} (h : IdleZonesOff s) : HeatersHeld (refreshLoops s) :=
  enforceHold_heatersHeld
    (foldl_kept (P := IdleZonesOff) refreshLoop (fun _ k ht => refreshLoop_idleZonesOff ht k) _ s h)

theorem setMode_heatersHeld (m : LineMode) (p : RunPhase) {s : State} (h : HeatersHeld s) :
    HeatersHeld (setMode m p s) := by
  obtain ⟨hf, -, hl, -⟩ := modeFields_units m p s
  refine (refreshLoops_heatersHeld (h.idleZonesOff.of_zones hf.pins ?_)).of_loops
    (record_frame ..).pins (record_units ..).2.2.2.2.1
  rw [hl]

theorem checkDwell_heatersHeld {s : State} (h : HeatersHeld s) : HeatersHeld (checkDwell s) :=
  h.of_loops (checkDwell_frame s).pins (checkDwell_units s).2.2.1

theorem refreshHeatSetpoints_heatersHeld {s : State} (h : HeatersHeld s) :
    HeatersHeld (refreshHeatSetpoints s) := by
  have h1 : HeatersHeld { s with
      loops.loops := tab fun k =>
        if isHeatLoop k then { s.loops.loops[k] with setpoint := setpointOf s k }
        else s.loops.loops[k] } := by
    refine h.of_records rfl (fun z => ?_) (fun _ => ⟨rfl, rfl, rfl⟩)
    simp only [Fin.getElem_fin, tab_getElem]
    split <;> exact ⟨rfl, rfl⟩
  unfold refreshHeatSetpoints
  dsimp only
  split
  · exact checkDwell_heatersHeld h1
  · exact h1

theorem setHeatHold_heatersHeld (b : Bool) {s : State} (h : HeatersHeld s) :
    HeatersHeld (setHeatHold b s) :=
  refreshHeatSetpoints_heatersHeld (h.of_loops rfl rfl)

theorem raiseLimits_heatersHeld {s : State} (h : HeatersHeld s) : HeatersHeld (raiseLimits s) := by
  unfold raiseLimits
  split
  · exact h
  · refine h.of_records rfl (fun _ => ⟨rfl, rfl⟩) (fun z => ?_)
    simp only [Fin.getElem_fin, tab_getElem]
    split <;> exact ⟨rfl, rfl, rfl⟩

theorem setLineTarget_heatersHeld (t : Int) (r : RateSource) {s : State} (h : HeatersHeld s) :
    HeatersHeld (setLineTarget t r s) :=
  h.of_loops (setLineTarget_frame t r s).pins (setLineTarget_spec t r s).2.2.2.1

theorem rampPhase_heatersHeld {s : State} (h : HeatersHeld s) : HeatersHeld (rampPhase s) := h

theorem nipOff_heatersHeld {s : State} (h : HeatersHeld s) : HeatersHeld (nipOff s) :=
  h.of_loops (nipOff_frame s).pins (nipOff_spec s).2.2.2.1

/-- A change of a loop that leaves its mode alone and sets no stale mark holds off no zone. -/
theorem modifyLoop_heatersHeld {k : Fin 10} {f : LoopRec → LoopRec} {s : State} (h : HeatersHeld s)
    (hm : ∀ l, (f l).mode = l.mode) (hs : ∀ l, (f l).stale = true → l.stale = true) :
    HeatersHeld (modifyLoop k f s) := by
  refine h.of_held id (fun z hz => ?_) (fun _ => ⟨rfl, rfl⟩)
  have e : (modifyLoop k f s).loops.loops[zoneLoop z] =
      if (zoneLoop z).val = k.val then f s.loops.loops[zoneLoop z] else s.loops.loops[zoneLoop z] := by
    simp only [Fin.getElem_fin, modifyLoop_getElem]
  simp only [heldOff, e, modifyLoop_loops_zones, modifyLoop_pins, Bool.or_eq_true] at hz ⊢
  split at hz
  · rw [hm] at hz
    exact hz.imp_left (Or.imp_left (Or.imp_right (hs _)))
  · exact hz

theorem modifyZone_zone (z : Fin 6) (f : Zone → Zone) (s : State) (x : Fin 6) :
    (modifyZone z f s).loops.zones[x] = if x = z then f s.loops.zones[x] else s.loops.zones[x] := by
  simp only [Fin.getElem_fin, modifyZone_getElem, Fin.ext_iff]

/-- A change of a zone that puts it over temperature nowhere and at most turns it off. -/
theorem modifyZone_heatersHeld {z : Fin 6} {f : Zone → Zone} {s : State} (h : HeatersHeld s)
    (ho : ∀ x, (f x).overTemp = true → x.overTemp = true)
    (ha : ∀ x, x.active = 0 → (f x).active = 0)
    (hp : ∀ x, x.heaterOn = false → (f x).heaterOn = false) : HeatersHeld (modifyZone z f s) := by
  intro x hx
  have hold : heldOff (modifyZone z f s) x = true → heldOff s x = true := by
    simp only [heldOff, modifyZone_zone, modifyZone_loops_loops, modifyZone_pins, Bool.or_eq_true]
    split
    · exact Or.imp_left (Or.imp_right (ho _))
    · exact id
  obtain ⟨a, b⟩ := h x (hx.imp_left hold)
  rw [modifyZone_zone]
  split
  · exact ⟨ha _ a, hp _ b⟩
  · exact ⟨a, b⟩

theorem stoppingComplete_heatersHeld {s : State} (h : HeatersHeld s) :
    HeatersHeld (stoppingComplete s) := by
  have h1 := setMode_heatersHeld .ready .noPhase (s := { s with line.feed := false }) (h.of_loops rfl rfl)
  unfold stoppingComplete
  dsimp only
  split
  · exact nipOff_heatersHeld h1
  · exact h1

theorem endStop_heatersHeld {s : State} (h : HeatersHeld s) : HeatersHeld (endStop s) := by
  unfold endStop
  split
  · exact stoppingComplete_heatersHeld h
  · exact h

theorem beginStop_heatersHeld {s : State} (h : HeatersHeld s) : HeatersHeld (beginStop s) :=
  setLineTarget_heatersHeld _ _ (setMode_heatersHeld _ _ h)

theorem stopLine_heatersHeld {s : State} (h : HeatersHeld s) : HeatersHeld (stopLine s) := by
  unfold stopLine
  split
  · exact endStop_heatersHeld (beginStop_heatersHeld h)
  · exact h

end Sys2Proof.Machine

namespace Sys2Proof.Machine

theorem recomputeOutput_heatersHeld (n : Fin 5) {s : State} (h : HeatersHeld s) :
    HeatersHeld (recomputeOutput n s) :=
  h.of_records rfl (fun _ => ⟨rfl, rfl⟩) (fun _ => ⟨rfl, rfl, rfl⟩)

theorem storePlain_heatersHeld (p : Point) (v : Int) {s : State} (h : HeatersHeld s) :
    HeatersHeld (storePlain p v s) := by
  cases p
  case standbyTemp =>
    simp only [storePlain]
    split
    · exact refreshHeatSetpoints_heatersHeld
        (h.of_records rfl (fun _ => ⟨rfl, rfl⟩) (fun _ => ⟨rfl, rfl, rfl⟩))
    · exact h.of_records rfl (fun _ => ⟨rfl, rfl⟩) (fun _ => ⟨rfl, rfl, rfl⟩)
  case overheatMargin =>
    exact raiseLimits_heatersHeld
      (h.of_records rfl (fun _ => ⟨rfl, rfl⟩) (fun _ => ⟨rfl, rfl, rfl⟩))
  case loopKp k => exact modifyLoop_heatersHeld h (fun _ => rfl) (fun _ => id)
  case loopKi k => exact modifyLoop_heatersHeld h (fun _ => rfl) (fun _ => id)
  case countsPerMm =>
    simp only [storePlain]
    split <;> exact h
  all_goals exact h.of_records rfl (fun _ => ⟨rfl, rfl⟩) (fun _ => ⟨rfl, rfl, rfl⟩)

theorem writePlain_heatersHeld (p : Point) (v : Int) {s : State} (h : HeatersHeld s) :
    HeatersHeld (writePlain p v s).state := by
  unfold writePlain
  exact storePlain_heatersHeld p _ h

theorem writeLoopMode_heatersHeld (k : Fin 10) (v : Int) {s : State} (h : HeatersHeld s) :
    HeatersHeld (writeLoopMode k v s).state := by
  have hk : ∀ f, HeatersHeld (enforceHold (refreshLoop (modifyLoop k f s) k)) := fun f =>
    enforceHold_heatersHeld
    (refreshLoop_idleZonesOff (modifyLoop_idleZonesOff h.idleZonesOff k _) k)
  unfold writeLoopMode
  dsimp only
  split
  · exact hk _
  · split
    · exact hk _
    · exact h

/-- A write of a point, by the line computer, a reaction or a start, keeps the zones held. -/
theorem settingWrite_heatersHeld (p : Point) (v : Int) {s : State} (h : HeatersHeld s) :
    HeatersHeld (settingWrite p v s).state := by
  unfold settingWrite
  split
  · refine h.of_loops (writeLinkSilence_frame v s).pins ?_
    unfold writeLinkSilence silenceOnWrite
    dsimp only
    split
    · rfl
    · split <;> rfl
  · exact h.of_records rfl (fun _ => ⟨rfl, rfl⟩) (fun _ => ⟨rfl, rfl, rfl⟩)
  · exact modifyLoop_heatersHeld h (fun _ => rfl) (fun _ => id)
  · exact modifyLoop_heatersHeld h (fun _ => rfl) (fun _ => id)
  · unfold writeLoopOutput
    dsimp only
    split
    · exact modifyLoop_heatersHeld h (fun _ => rfl) (fun _ => id)
    · exact h
  · exact writeLoopMode_heatersHeld _ v h
  · unfold writeOutSource
    split
    · exact h
    · exact recomputeOutput_heatersHeld _
        (h.of_records rfl (fun _ => ⟨rfl, rfl⟩) (fun _ => ⟨rfl, rfl, rfl⟩))
  · exact writePlain_heatersHeld _ v h

theorem liftNip_heatersHeld {s : State} (h : HeatersHeld s) : HeatersHeld (liftNip s) := by
  have h1 := nipOff_heatersHeld h
  unfold liftNip
  dsimp only
  split
  · exact setMode_heatersHeld _ _ (setLineTarget_heatersHeld _ _ (h1.of_loops rfl rfl))
  · exact h1

theorem replaceRamp_loops (s : State) : (replaceRamp s).loops = s.loops := by
  unfold replaceRamp
  split <;> rfl

theorem safeLine_heatersHeld {s : State} (h : HeatersHeld s) : HeatersHeld (safeLine s) :=
  nipOff_heatersHeld (setMode_heatersHeld _ _
    (h.of_loops (replaceRamp_frame s).pins (replaceRamp_loops s)))

theorem startRamp_loops (t r : Int) (s : State) : (startRamp t r s).loops = s.loops := by
  unfold startRamp rampPhase
  dsimp only
  split
  · split <;> rfl
  · rfl

theorem abandonRamp_loops (s : State) : (abandonRamp s).loops = s.loops := by
  unfold abandonRamp
  split <;> rfl

/-- No hand-over and no reaction leaves a held zone on. -/
theorem heatersHeld_kept : Kept HeatersHeld where
  output n _ h := recomputeOutput_heatersHeld n h
  watch _ _ _ h := h
  levels _ _ h := h
  deferred _ _ h := h
  free _ h := h
  hold _ _ h _ := h
  raise k d s h := h.of_loops (record_frame k d s).pins (record_units k d s).2.2.2.2.1
  write p v _ h _ := settingWrite_heatersHeld p v h
  ramp t r s h := h.of_loops (startRamp_frame t r s).pins (startRamp_loops t r s)
  abandon s h := h.of_loops (abandonRamp_frame s).pins (abandonRamp_loops s)
  lift _ h := liftNip_heatersHeld h
  stop _ h := stopLine_heatersHeld h
  heatHold _ h := setHeatHold_heatersHeld true h
  beacon _ h := h
  report _ s h := h.of_loops (offerReport_frame _ s).pins (offerReport_units _ s).2.2.2.2.1
  safe _ h _ := safeLine_heatersHeld h

theorem engageComplete_heatersHeld {s : State} (h : HeatersHeld s) :
    HeatersHeld (engageComplete s) := by
  unfold engageComplete
  split
  · exact rampPhase_heatersHeld (setLineTarget_heatersHeld _ _ h)
  · exact h

theorem liftDone_loops (s : State) : (liftDone s).loops = s.loops := by
  unfold liftDone
  split <;> rfl

theorem nipOn_heatersHeld {s : State} (h : HeatersHeld s) : HeatersHeld (nipOn s) := by
  have h1 : HeatersHeld (liftDone s) := h.of_loops (liftDone_frame s).pins (liftDone_loops s)
  unfold nipOn
  split
  · split
    · exact engageComplete_heatersHeld (h.of_loops rfl rfl)
    · exact h
  · dsimp only
    split
    · exact engageComplete_heatersHeld (h1.of_loops rfl rfl)
    · exact h1
  · exact engageComplete_heatersHeld h
  · exact h
  · exact h

theorem ownedRampReached_loops (s : State) : (ownedRampReached s).loops = s.loops := by
  unfold ownedRampReached
  split <;> rfl

theorem targetReached_heatersHeld {s : State} (h : HeatersHeld s) : HeatersHeld (targetReached s) := by
  have h1 : HeatersHeld (ownedRampReached s) :=
    h.of_loops (ownedRampReached_frame s).pins (ownedRampReached_loops s)
  unfold targetReached
  dsimp only
  split
  · split <;> exact h1
  · split
    · exact stoppingComplete_heatersHeld h1
    · exact h1
  all_goals exact h1

theorem stepReference_heatersHeld {s : State} (h : HeatersHeld s) : HeatersHeld (stepReference s) := by
  have h1 : HeatersHeld (refreshLoops { s with line.reference := steppedReference s.line }) :=
    refreshLoops_heatersHeld h.idleZonesOff
  unfold stepReference
  split
  · exact h
  · dsimp only
    split
    · exact targetReached_heatersHeld h1
    · exact h1

theorem failedEngage_heatersHeld {s : State} (h : HeatersHeld s) : HeatersHeld (failedEngage s) := by
  unfold failedEngage
  split
  · exact setMode_heatersHeld _ _ (setLineTarget_heatersHeld _ _ (h.of_loops rfl rfl))
  · exact h

theorem feedbackActive_heatersHeld {s : State} (h : HeatersHeld s) :
    HeatersHeld (feedbackActive s) := by
  unfold feedbackActive
  split
  · exact engageComplete_heatersHeld (h.of_loops rfl rfl)
  all_goals exact h

theorem heldOff_startWindow (s : State) (z : Fin 6) : heldOff (startWindow s) z = heldOff s z := by
  simp [startWindow, heldOff]

/-- R72, R74: a window gives a zone that is held off the duty 0. -/
theorem startWindow_heatersHeld {s : State} (hr : s.runs = true) : HeatersHeld (startWindow s) := by
  intro z hz
  have hs : (startWindow s).runs = s.runs := rfl
  rw [heldOff_startWindow, hs, hr] at hz
  have hd : pendingDuty s z = 0 := by simp [pendingDuty, hz.resolve_right (by decide)]
  simp [startWindow, hd]

theorem nipLotAtLine_heatersHeld (old new : Option Lot) {s : State} (h : HeatersHeld s) :
    HeatersHeld (nipLotAtLine old new s) := by
  unfold nipLotAtLine
  dsimp only
  split
  · exact h
  · split
    · exact rampPhase_heatersHeld (setLineTarget_heatersHeld _ _ h)
    · exact h

theorem refreshTensionSetpoints_heatersHeld {s : State} (h : HeatersHeld s) :
    HeatersHeld (refreshTensionSetpoints s) := by
  refine h.of_records rfl (fun z => ?_) (fun _ => ⟨rfl, rfl, rfl⟩)
  simp only [refreshTensionSetpoints, Fin.getElem_fin, tab_getElem]
  split <;> exact ⟨rfl, rfl⟩

theorem zoneLoop_ne_spanLoop (z : Fin 6) (t : Fin 4) : zoneLoop z ≠ spanLoop t := by
  intro e
  have hv : z.val = 6 + t.val := congrArg Fin.val e
  omega

/-- A tension loop that takes its mode holds off no zone. -/
theorem refreshSpanLoop_heatersHeld (t : Fin 4) {s : State} (h : HeatersHeld s) :
    HeatersHeld (refreshLoop s (spanLoop t)) :=
  h.of_records (refreshLoop_frame ..).pins
    (fun z => by rw [refreshLoop_other s (zoneLoop_ne_spanLoop z t)]; exact ⟨rfl, rfl⟩)
    (fun z => by rw [refreshLoop_zones]; exact ⟨rfl, rfl, rfl⟩)

theorem startEngine_loops (s : State) :
    (startEngine s).pins = s.pins ∧ (startEngine s).line = s.line ∧ (startEngine s).loops = s.loops := by
  unfold startEngine
  split
  · exact ⟨rfl, rfl, rfl⟩
  · split <;> exact ⟨rfl, rfl, rfl⟩

/-- The owners of requests leave no held zone on. -/
theorem heatersHeld_ownerKept (c : Instr) : OwnerKept HeatersHeld c where
  toKept := heatersHeld_kept
  count _ _ h := h
  position _ _ h := h
  speed _ h := h
  step _ h := stepReference_heatersHeld h
  dwellEnd _ h _ := setMode_heatersHeld _ _ h
  dwell _ h := checkDwell_heatersHeld h
  nipState _ _ h := h
  feedback _ h := feedbackActive_heatersHeld h
  failed _ h := failedEngage_heatersHeld h
  beginStop _ h _ := beginStop_heatersHeld h
  endStop _ h := endStop_heatersHeld h
  heat _ h _ := setMode_heatersHeld _ _ (setHeatHold_heatersHeld _ h)
  cool _ h _ := nipOff_heatersHeld
    ((setHeatHold_heatersHeld false (setMode_heatersHeld _ _ h)).of_loops rfl rfl)
  run _ h _ := nipOn_heatersHeld
    ((setHeatHold_heatersHeld false (setMode_heatersHeld _ _ h)).of_loops rfl rfl)
  thread _ h _ := setLineTarget_heatersHeld _ _
    ((nipOff_heatersHeld (setMode_heatersHeld _ _ h)).of_loops rfl rfl)
  clear _ h _ _ := setMode_heatersHeld _ _ (h.of_loops rfl rfl)
  beaconOff _ h := h
  nipFb _ _ h := h
  guardClosed _ _ h := h
  estopOn s h hr := enforceHold_heatersHeld (fun hn => by rw [← hr] at hn; exact h.idleZonesOff (by
    revert hn; simp [State.runs]))
  estopOff s h := h.of_held id (fun z hz => by
    simp only [heldOff, Bool.or_false] at hz ⊢
    rw [hz, Bool.true_or]) (fun _ => ⟨rfl, rfl⟩)
  idlePins _ _ h hr _ := fun z _ => h z (.inr hr)
  scanner _ _ h _ := h
  channel _ _ _ h := h
  loopFresh _ _ h := modifyLoop_heatersHeld h (fun _ => rfl) (fun _ hs => (Bool.false_ne_true hs).elim)
  loopStale k _ h := enforceHold_heatersHeld
    (refreshLoop_idleZonesOff (modifyLoop_idleZonesOff h.idleZonesOff k _) k)
  tension t _ h := refreshSpanLoop_heatersHeld t
    (modifyLoop_heatersHeld h (fun _ => rfl) (fun _ hs => (Bool.false_ne_true hs).elim))
  compute _ _ _ h := modifyLoop_heatersHeld h (fun _ => rfl) (fun _ => id)
  limit _ t v _ h := modifyZone_heatersHeld h
    (fun x => by unfold lowerLimit; split <;> (try split) <;> exact id)
    (fun x => by unfold lowerLimit; split <;> (try split) <;> exact id)
    (fun x => by unfold lowerLimit; split <;> (try split) <;> exact id)
  overOn z s h := enforceHold_heatersHeld (fun hr x => by
    obtain ⟨a, b⟩ := h.idleZonesOff hr x
    rw [modifyZone_zone]; split <;> exact ⟨a, b⟩)
  overOff _ _ h := modifyZone_heatersHeld h (fun _ ho => (Bool.false_ne_true ho).elim) (fun _ => id) (fun _ => id)
  span _ _ _ h := h
  window _ _ hr := startWindow_heatersHeld hr
  onTime _ _ h := modifyZone_heatersHeld h (fun _ => id) (fun _ => id) (fun _ _ => rfl)
  guardedWrite p v _ h _ _ := settingWrite_heatersHeld p v h
  heatLot _ _ h _ := raiseLimits_heatersHeld (refreshHeatSetpoints_heatersHeld (h.of_loops rfl rfl))
  nipLot _ _ h _ := nipLotAtLine_heatersHeld _ _ (refreshTensionSetpoints_heatersHeld (h.of_loops rfl rfl))
  lot _ _ h _ := h
  colour _ _ _ h _ _ := h
  fabric _ _ _ h _ _ := h
  accept _ _ _ _ _ h _ _ _ _ _ := by
    unfold acceptBand
    exact h.of_loops (startEngine_loops _).1 (startEngine_loops _).2.2
  edit _ _ _ h _ _ := h
  remove _ _ h := h
  idle _ h := h
  engine s h := h.of_loops (startEngine_loops s).1 (startEngine_loops s).2.2
  admitEntries _ _ _ s h := by unfold offerHistory; split <;> exact h
  clearRings _ _ h := h
  lockOn _ h _ := h
  lockOff _ h := h
  offer r s h := h.of_loops (offerReport_frame r s).pins (offerReport_units r s).2.2.2.2.1
  flags _ s h := by unfold clearFlags; dsimp only; split <;> exact h
  mask _ _ h := h
  faultClear _ h _ := h
  restarting _ h := h
  nvm _ _ h := h

end Sys2Proof.Machine

namespace Sys2Proof.Machine

/-- R62: a property that every write of a point keeps is kept as a stored point is taken. -/
theorem loadPoint_kept {P : State → Prop} (hw : ∀ p v s, P s → P (settingWrite p v s).state)
    (s : State) (i : Nat × Int) (h : P s) : P (loadPoint s i) := by
  unfold loadPoint
  split
  · exact h
  · split
    · exact hw _ _ s h
    · exact h

theorem blankStart_heatersHeld (cause : StartCause) (m : Option LineMode) (r : FaultRecord) (s : State) :
    HeatersHeld (blankStart cause m r s) := by
  intro z _
  simp [blankStart, State.reset, LoopUnit.reset, Zone.reset]

theorem loadStore_heatersHeld {s : State} (h : HeatersHeld s) : HeatersHeld (loadStore s) := by
  unfold loadStore
  split
  · exact h
  · next c _ =>
    have h1 : HeatersHeld (c.points.foldl loadPoint s) :=
      foldl_kept _ (loadPoint_kept fun p v _ h => settingWrite_heatersHeld p v h) _ s h
    refine h1.of_records rfl (fun z => ?_) (fun _ => ⟨rfl, rfl, rfl⟩)
    simp [applyLoaded, loadContents, resetOutput]

/-- No command leaves a held zone on. -/
theorem heatersHeld_stepKept (c : Instr) : StepKept HeatersHeld c where
  toOwnerKept := heatersHeld_ownerKept c
  receiver _ _ h := h
  buffered _ _ h _ := h
  silence _ _ h := h
  dequeued s h := h.of_loops (dequeue_pins s) (dequeue_loops s)
  reply _ _ h := h.of_loops (transmitNext_frame _).pins (transmitNext_units _).2.2.2.2.1
  sent _ h := h.of_loops (transmitNext_frame _).pins (transmitNext_units _).2.2.2.2.1
  blank cause m r p s _ _ _ := blankStart_heatersHeld cause m r { s with pins := p }
  load _ h _ _ _ := loadStore_heatersHeld h

/-- An invariant of every command is an invariant of every step. -/
theorem step_kept {P : State → Prop} (k : ∀ c, StepKept P c)
    (hq : ∀ l s, P s → P { s with pending := l }) {s t : State} (h : P s)
    (e : Machine.step s = .next t) : P t := by
  unfold Machine.step at e
  split at e
  · cases e
    exact (k .guardCloses).settle s h
  · next c rest _ =>
    obtain ⟨u, hu, hP⟩ := (k c).exec _ (hq rest s h) (fun f _ => (k (requestOf f)).toOwnerKept)
    rw [hu] at e
    cases e
    exact hP

/-- Settles O54: every command keeps the zones held, whatever requests the link takes within it. -/
theorem heatersHeldKept : Obligations.HeatersHeldKept := by
  unfold Obligations.HeatersHeldKept
  exact fun _ _ h e => step_kept heatersHeld_stepKept (fun _ _ h => h) h e

end Sys2Proof.Machine

namespace Sys2Proof.Machine

/-! ## The clamp of R1 -/

theorem clampTo_eq_max_min {lo hi : Int} (h : lo ≤ hi) (v : Int) :
    clampTo lo hi v = max lo (min v hi) := by
  unfold clampTo
  split
  · omega
  · split <;> omega

theorem le_clampTo {lo hi : Int} (h : lo ≤ hi) (v : Int) : lo ≤ clampTo lo hi v := by
  rw [clampTo_eq_max_min h]
  omega

theorem clampTo_le {lo hi : Int} (h : lo ≤ hi) (v : Int) : clampTo lo hi v ≤ hi := by
  rw [clampTo_eq_max_min h]
  omega

theorem clampTo_eq_self_iff {lo hi : Int} (h : lo ≤ hi) (v : Int) :
    clampTo lo hi v = v ↔ lo ≤ v ∧ v ≤ hi := by
  rw [clampTo_eq_max_min h]
  omega

/-- R7: the target 0 is never moved by the clamp. -/
theorem clampTo_zero {hi : Int} (h : 0 ≤ hi) : clampTo 0 hi 0 = 0 :=
  (clampTo_eq_self_iff h 0).mpr ⟨le_rfl, h⟩

/-! ## What the line unit's operations make of the line, and what they leave alone -/

/-- R20: the nip after the line unit has turned it off. -/
def liftedNip (feedback : Bool) (n : NipState) : NipState :=
  if n.output then (if feedback then .opening else .opened) else n

theorem liftedNip_output (feedback : Bool) (n : NipState) : (liftedNip feedback n).output = false := by
  cases feedback <;> cases n <;> rfl

theorem nipOff_line (s : State) :
    (nipOff s).line = { s.line with nip := liftedNip s.pins.nipFb s.line.nip } := by
  unfold nipOff liftedNip
  split <;> rfl

theorem feedField_lineFrame (b : Bool) (s : State) : LineFrame s { s with line.feed := b } :=
  .of_units (feedField_frame b s) ⟨rfl, rfl, rfl, rfl, rfl, rfl, rfl, rfl⟩

theorem nipField_lineFrame (n : NipState) (s : State) : LineFrame s { s with line.nip := n } :=
  .of_units (nipField_frame n s) ⟨rfl, rfl, rfl, rfl, rfl, rfl, rfl, rfl⟩

theorem phaseField_lineFrame (p : RunPhase) (s : State) : LineFrame s { s with line.phase := p } :=
  .of_units (phaseField_frame p s) ⟨rfl, rfl, rfl, rfl, rfl, rfl, rfl, rfl⟩

theorem referenceField_lineFrame (v : Int) (s : State) : LineFrame s { s with line.reference := v } :=
  .of_units (referenceField_frame v s) ⟨rfl, rfl, rfl, rfl, rfl, rfl, rfl, rfl⟩

theorem deferOffer_lineFrame (d : Deferred) (s : State) : LineFrame s (deferOffer d s) :=
  .of_units (deferOffer_frame d s) ⟨rfl, rfl, rfl, rfl, rfl, rfl, rfl, rfl⟩

theorem liftDone_line (s : State) : (liftDone s).line = s.line := by
  unfold liftDone
  split <;> rfl

theorem liftDone_lineFrame (s : State) : LineFrame s (liftDone s) := by
  unfold liftDone
  split
  · exact deferOffer_lineFrame ..
  · exact .refl s

theorem rampPhase_lineFrame (s : State) : LineFrame s (rampPhase s) := phaseField_lineFrame _ s

/-- R16: the line after a STOP has been taken. -/
theorem beginStop_line (s : State) : (beginStop s).line =
    { s.line with
      mode := .stopping, phase := .noPhase, dwell := none, target := clampTo 0 s.line.vMax 0
      rateSource := .stopRate, owner := .line } := by
  rw [beginStop, (setLineTarget_spec ..).2.1, (setMode_spec ..).2.1]

theorem beginStop_lineFrame (s : State) : LineFrame s (beginStop s) :=
  (setMode_spec ..).1.trans (setLineTarget_spec ..).1

theorem beginStop_modeChange (s : State) : hasKind (beginStop s).events.set .modeChange = true := by
  rw [beginStop, (setLineTarget_spec ..).2.2.1]
  exact (setMode_spec ..).2.2

/-- R16: the line after a stop has ended. -/
theorem stoppingComplete_line (s : State) : (stoppingComplete s).line =
    { s.line with
      mode := .ready, phase := .noPhase, dwell := none, feed := false
      nip := if s.line.liftOnStop = 1 then liftedNip s.pins.nipFb s.line.nip else s.line.nip } := by
  obtain ⟨f, l, -⟩ := setMode_spec .ready .noPhase { s with line.feed := false }
  unfold stoppingComplete
  dsimp only
  by_cases h : s.line.liftOnStop = 1
  · rw [if_pos (by rw [l]; exact h), nipOff_line, l, f.pins, if_pos h]
  · rw [if_neg (by rw [l]; exact h), l, if_neg h]

theorem stoppingComplete_lineFrame (s : State) : LineFrame s (stoppingComplete s) := by
  have h : LineFrame s (setMode .ready .noPhase { s with line.feed := false }) :=
    (feedField_lineFrame false s).trans (setMode_spec ..).1
  unfold stoppingComplete
  dsimp only
  split
  · exact h.trans (nipOff_spec _).1
  · exact h

theorem stoppingComplete_modeChange (s : State) :
    hasKind (stoppingComplete s).events.set .modeChange = true := by
  have h := (setMode_spec .ready .noPhase { s with line.feed := false }).2.2
  unfold stoppingComplete
  dsimp only
  split
  · rw [(nipOff_spec _).2.2.1]
    exact h
  · exact h

theorem endStop_lineFrame (s : State) : LineFrame s (endStop s) := by
  unfold endStop
  split
  · exact stoppingComplete_lineFrame s
  · exact .refl s

/-- R13, R14: the line after the engage is complete. -/
theorem engageComplete_line {s : State} (hm : s.line.mode = .running) (hp : s.line.phase = .engaging) :
    (engageComplete s).line =
      { s.line with
        target := clampTo 0 s.line.vMax (nipRunSpeed s)
        rateSource := .rampRate
        owner := .line
        phase :=
          if clampTo 0 s.line.vMax (nipRunSpeed s) = s.line.reference then .steady else .ramping } := by
  rw [engageComplete, if_pos ⟨hm, hp⟩, rampPhase, (setLineTarget_spec ..).2.1]

theorem engageComplete_else {s : State} (h : ¬(s.line.mode = .running ∧ s.line.phase = .engaging)) :
    engageComplete s = s := by
  rw [engageComplete, if_neg h]

theorem engageComplete_lineFrame (s : State) : LineFrame s (engageComplete s) := by
  unfold engageComplete
  split
  · exact (setLineTarget_spec ..).1.trans (rampPhase_lineFrame _)
  · exact .refl s

/-- R21, R20: an engage that fails, or that a LIFT ends, returns the line to READY. -/
theorem endEngage_line (s : State) :
    (setMode .ready .noPhase (setLineTarget 0 .rampRate { s with line.feed := false })).line =
      { s.line with
        mode := .ready, phase := .noPhase, dwell := none, feed := false
        target := clampTo 0 s.line.vMax 0, rateSource := .rampRate, owner := .line } := by
  rw [(setMode_spec ..).2.1, (setLineTarget_spec ..).2.1]

theorem endEngage_lineFrame (s : State) : LineFrame s
    (setMode .ready .noPhase (setLineTarget 0 .rampRate { s with line.feed := false })) :=
  (feedField_lineFrame false s).trans ((setLineTarget_spec ..).1.trans (setMode_spec ..).1)

/-- R8: the line after a RAMP that takes effect. -/
theorem startRamp_line {s : State} (h : rampTakesEffect s = true) (t r : Int) :
    (startRamp t r s).line =
      { s.line with
        target := clampTarget s t
        rateSource := .action r
        owner := if clampTarget s t = s.line.reference then .line else .action
        phase := if s.line.mode = .running then
            (if clampTarget s t = s.line.reference then .steady else .ramping)
          else s.line.phase } := by
  unfold startRamp rampPhase
  rw [if_pos h]
  dsimp only
  split <;> rfl

theorem startRamp_else {s : State} (h : rampTakesEffect s = false) (t r : Int) : startRamp t r s = s := by
  rw [startRamp, if_neg (by rw [h]; decide)]

theorem startRamp_lineFrame (t r : Int) (s : State) : LineFrame s (startRamp t r s) := by
  refine .of_units (startRamp_frame t r s) ?_
  unfold startRamp rampPhase
  dsimp only
  split
  · split <;> exact ⟨rfl, rfl, rfl, rfl, rfl, rfl, rfl, rfl⟩
  · exact ⟨rfl, rfl, rfl, rfl, rfl, rfl, rfl, rfl⟩

theorem rampTakesEffect_iff (s : State) : rampTakesEffect s = true ↔
    s.line.mode = .threading ∨
      (s.line.mode = .running ∧ (s.line.phase = .ramping ∨ s.line.phase = .steady)) := by
  unfold rampTakesEffect
  cases s.line.mode <;> simp

theorem replaceRamp_line (s : State) : (replaceRamp s).line = { s.line with owner := .line } := by
  unfold replaceRamp
  cases h : s.line.owner
  · dsimp only
    rw [← h]
  · rfl

theorem replaceRamp_lineFrame (s : State) : LineFrame s (replaceRamp s) := by
  refine .of_units (replaceRamp_frame s) ?_
  unfold replaceRamp
  split <;> exact ⟨rfl, rfl, rfl, rfl, rfl, rfl, rfl, rfl⟩

/-- R17: the line after an entry into SAFE. -/
theorem safeLine_line (s : State) : (safeLine s).line =
    { s.line with
      owner := .line, target := 0, reference := 0, feed := false, beacon := true
      mode := .safe, phase := .noPhase, dwell := none
      nip := liftedNip s.pins.nipFb s.line.nip } := by
  unfold safeLine
  dsimp only
  obtain ⟨f, l, -⟩ := setMode_spec .safe .noPhase { replaceRamp s with
    line.target := 0, line.reference := 0, line.feed := false, line.beacon := true }
  rw [nipOff_line, l, f.pins]
  dsimp only
  rw [replaceRamp_line, (replaceRamp_frame s).pins]

theorem checkDwell_line (s : State) :
    (checkDwell s).line = { s.line with dwell := (checkDwell s).line.dwell } := by
  unfold checkDwell
  split
  · split
    · split <;> rfl
    · rfl
  · rfl

theorem refreshHeatSetpoints_line (s : State) : (refreshHeatSetpoints s).line =
    { s.line with dwell := (refreshHeatSetpoints s).line.dwell } := by
  unfold refreshHeatSetpoints
  dsimp only
  split
  · exact checkDwell_line _
  · rfl

theorem raiseLimits_line (s : State) : (raiseLimits s).line = s.line := by
  unfold raiseLimits
  split <;> rfl

theorem setHeatHold_line (b : Bool) (s : State) : (setHeatHold b s).line =
    { s.line with heatHold := b, dwell := (setHeatHold b s).line.dwell } := by
  unfold setHeatHold
  exact refreshHeatSetpoints_line _

theorem ownedRampReached_line (s : State) :
    (ownedRampReached s).line = { s.line with owner := .line } := by
  unfold ownedRampReached
  cases h : s.line.owner
  · dsimp only
    rw [← h]
  · rfl

end Sys2Proof.Machine

namespace Sys2Proof.Machine

/-! ## The web at rest -/

/-- The drive of the web: mode, run phase, reference, target, FEED and the target's owner. -/
def LineUnit.sameDrive (l m : LineUnit) : Prop :=
  m.mode = l.mode ∧ m.phase = l.phase ∧ m.reference = l.reference ∧ m.target = l.target ∧
    m.feed = l.feed ∧ m.owner = l.owner

theorem LineUnit.sameDrive_refl (l : LineUnit) : l.sameDrive l := ⟨rfl, rfl, rfl, rfl, rfl, rfl⟩

theorem LineUnit.sameDrive_of_eq {l m : LineUnit} (h : m = l) : l.sameDrive m := by
  rw [h]
  exact l.sameDrive_refl

theorem LineUnit.sameDrive.trans {l m n : LineUnit} (h : l.sameDrive m) (g : m.sameDrive n) :
    l.sameDrive n := by
  obtain ⟨a, b, c, d, e, f⟩ := h
  obtain ⟨a', b', c', d', e', f'⟩ := g
  exact ⟨a'.trans a, b'.trans b, c'.trans c, d'.trans d, e'.trans e, f'.trans f⟩

theorem LineRest.of_drive {s t : State} (h : LineRest s) (d : s.line.sameDrive t.line)
    (v : 50 ≤ t.line.vMax ∧ t.line.vMax ≤ 2000) : LineRest t := by
  obtain ⟨hm, hp, hr, ht, hf, ho⟩ := d
  have e : rampTakesEffect t = rampTakesEffect s := by
    unfold rampTakesEffect
    rw [hm, hp]
  refine ⟨v, ?_, ?_, ?_, ?_, ?_⟩
  · rw [hm, hr, ht, hf]
    exact h.rest
  · rw [hp, hr, ht]
    exact h.engaging
  · rw [hm, ht]
    exact h.stopping
  · rw [hm, hp]
    exact h.phase
  · rw [ho, e]
    exact h.owner

theorem LineRest.of_line {s t : State} (h : LineRest s) (e : t.line = s.line) : LineRest t :=
  h.of_drive (LineUnit.sameDrive_of_eq e) (by rw [e]; exact h.vMax)

/-- R9: a line at rest meets the invariant in every mode. -/
theorem LineRest.resting {t : State} (v : 50 ≤ t.line.vMax ∧ t.line.vMax ≤ 2000)
    (hp : t.line.phase = .noPhase) (hr : t.line.reference = 0) (ht : t.line.target = 0)
    (hf : t.line.feed = false) (ho : t.line.owner = .line) : LineRest t where
  vMax := v
  rest _ := ⟨hr, ht, hf⟩
  engaging _ := ⟨hr, ht⟩
  stopping _ := ht
  phase _ := hp
  owner h := absurd (ho.symm.trans h) (by decide)

/-- R13, R14: a line that moves, or may move, in RUNNING past ENGAGING. -/
theorem LineRest.moving {t : State} (v : 50 ≤ t.line.vMax ∧ t.line.vMax ≤ 2000)
    (hm : t.line.mode = .running) (hp : t.line.phase = .ramping ∨ t.line.phase = .steady) :
    LineRest t where
  vMax := v
  rest h := by rw [hm] at h; exact absurd h (by decide)
  engaging h := by rw [h] at hp; exact absurd hp (by decide)
  stopping h := by rw [hm] at h; exact absurd h (by decide)
  phase h := absurd hm h
  owner _ := (rampTakesEffect_iff t).mpr (.inr ⟨hm, hp⟩)

/-- R8: outside RUNNING past ENGAGING and THREADING no ramp of an action is in flight. -/
theorem LineRest.owner_line {s : State} (h : LineRest s) (hn : rampTakesEffect s = false) :
    s.line.owner = .line := by
  cases ho : s.line.owner
  · rfl
  · rw [h.owner ho] at hn
    exact absurd hn (by decide)

theorem rampTakesEffect_rest {s : State} (h : restMode s.line.mode = true) :
    rampTakesEffect s = false := by
  unfold rampTakesEffect
  cases hm : s.line.mode <;> rw [hm] at h <;> first | rfl | exact absurd h (by decide)

/-- R9: a change of mode with the web at rest, no run phase and FEED off. -/
theorem setMode_lineRest (m : LineMode) {s : State} (h : LineRest s)
    (hs : restMode s.line.mode = true) : LineRest (setMode m .noPhase s) := by
  obtain ⟨hr, ht, hf⟩ := h.rest hs
  have ho := h.owner_line (rampTakesEffect_rest hs)
  have l := (setMode_spec m .noPhase s).2.1
  apply LineRest.resting <;> rw [l]
  · exact h.vMax
  · exact hr
  · exact ht
  · exact hf
  · exact ho

theorem clampTo_vMax_zero {s : State} (h : LineRest s) : clampTo 0 s.line.vMax 0 = 0 :=
  clampTo_zero (le_trans (by decide) h.vMax.1)

theorem nipOff_drive (s : State) : s.line.sameDrive (nipOff s).line := by
  rw [nipOff_line]
  exact ⟨rfl, rfl, rfl, rfl, rfl, rfl⟩

theorem nipOff_lineRest {s : State} (h : LineRest s) : LineRest (nipOff s) :=
  h.of_drive (nipOff_drive s) (by rw [nipOff_line]; exact h.vMax)

theorem beginStop_lineRest {s : State} (h : LineRest s) : LineRest (beginStop s) := by
  have l := beginStop_line s
  rw [clampTo_vMax_zero h] at l
  constructor <;> rw [l]
  · exact h.vMax
  · exact fun hc => nomatch hc
  · exact fun hc => nomatch hc
  · exact fun _ => rfl
  · exact fun _ => rfl
  · exact fun hc => nomatch hc

/-- R16: a stop that ends with the reference at 0 leaves the web at rest. -/
theorem stoppingComplete_lineRest {s : State} (h : LineRest s) (hm : s.line.mode = .stopping)
    (hr : s.line.reference = 0) : LineRest (stoppingComplete s) := by
  have l := stoppingComplete_line s
  apply LineRest.resting <;> rw [l]
  · exact h.vMax
  · exact hr
  · exact h.stopping hm
  · exact h.owner_line (by simp [rampTakesEffect, hm])

theorem endStop_lineRest {s : State} (h : LineRest s) : LineRest (endStop s) := by
  unfold endStop
  split
  · next hc => exact stoppingComplete_lineRest h hc.1 hc.2
  · exact h

theorem stopLine_lineRest {s : State} (h : LineRest s) : LineRest (stopLine s) := by
  unfold stopLine
  split
  · exact endStop_lineRest (beginStop_lineRest h)
  · exact h

theorem engageComplete_lineRest {s : State} (h : LineRest s) : LineRest (engageComplete s) := by
  by_cases hc : s.line.mode = .running ∧ s.line.phase = .engaging
  · have l := engageComplete_line hc.1 hc.2
    apply LineRest.moving <;> rw [l]
    · exact h.vMax
    · exact hc.1
    · dsimp only
      split
      · exact .inr rfl
      · exact .inl rfl
  · rwa [engageComplete_else hc]

/-- R20, R21: an engage that ends without the nip leaves the web at rest. -/
theorem endEngage_lineRest {s : State} (h : LineRest s) (hp : s.line.phase = .engaging) : LineRest
    (setMode .ready .noPhase (setLineTarget 0 .rampRate { s with line.feed := false })) := by
  have l := endEngage_line s
  rw [clampTo_vMax_zero h] at l
  apply LineRest.resting <;> rw [l]
  · exact h.vMax
  · exact (h.engaging hp).1

theorem liftNip_lineRest {s : State} (h : LineRest s) : LineRest (liftNip s) := by
  have h1 := nipOff_lineRest h
  unfold liftNip
  dsimp only
  split
  · next hc => exact endEngage_lineRest h1 hc.2
  · exact h1

theorem failedEngage_lineRest {s : State} (h : LineRest s) : LineRest (failedEngage s) := by
  unfold failedEngage
  split
  · next hc => exact endEngage_lineRest h hc.2
  · exact h

theorem safeLine_lineRest {s : State} (h : LineRest s) : LineRest (safeLine s) := by
  have l := safeLine_line s
  apply LineRest.resting <;> rw [l]
  · exact h.vMax

theorem startRamp_lineRest (t r : Int) {s : State} (h : LineRest s) : LineRest (startRamp t r s) := by
  cases he : rampTakesEffect s
  · rwa [startRamp_else he]
  · have l := startRamp_line he t r
    rcases (rampTakesEffect_iff s).mp he with hm | ⟨hm, -⟩
    · have hp := h.phase (by rw [hm]; decide)
      constructor <;> rw [l]
      · exact h.vMax
      · rw [hm]
        exact fun hc => nomatch hc
      · simp [hm, hp]
      · simp [hm]
      · simp [hm, hp]
      · exact fun _ => (rampTakesEffect_iff _).mpr (.inl (by rw [l]; exact hm))
    · apply LineRest.moving <;> rw [l]
      · exact h.vMax
      · exact hm
      · simp only [hm, if_true]
        split
        · exact .inr rfl
        · exact .inl rfl

theorem abandonRamp_lineRest {s : State} (h : LineRest s) : LineRest (abandonRamp s) := by
  cases ho : s.line.owner
  · simpa [abandonRamp, ho] using h
  · have l : (abandonRamp s).line = { s.line with
        target := s.line.reference
        owner := .line
        phase := if s.line.mode = .running then .steady else s.line.phase } := by
      simp [abandonRamp, ho]
    rcases (rampTakesEffect_iff s).mp (h.owner ho) with hm | ⟨hm, -⟩
    · have hp := h.phase (by rw [hm]; decide)
      constructor <;> rw [l]
      · exact h.vMax
      · rw [hm]
        exact fun hc => nomatch hc
      · simp [hm, hp]
      · simp [hm]
      · simp [hm, hp]
      · exact fun hc => nomatch hc
    · apply LineRest.moving <;> rw [l]
      · exact h.vMax
      · exact hm
      · exact .inr (by rw [if_pos hm])

theorem refreshHeatSetpoints_drive (s : State) : s.line.sameDrive (refreshHeatSetpoints s).line ∧
    (refreshHeatSetpoints s).line.vMax = s.line.vMax := by
  rw [refreshHeatSetpoints_line]
  exact ⟨⟨rfl, rfl, rfl, rfl, rfl, rfl⟩, rfl⟩

theorem refreshHeatSetpoints_lineRest {s : State} (h : LineRest s) :
    LineRest (refreshHeatSetpoints s) :=
  h.of_drive (refreshHeatSetpoints_drive s).1 (by rw [(refreshHeatSetpoints_drive s).2]; exact h.vMax)

theorem setHeatHold_lineRest (b : Bool) {s : State} (h : LineRest s) : LineRest (setHeatHold b s) :=
  refreshHeatSetpoints_lineRest (h.of_drive ⟨rfl, rfl, rfl, rfl, rfl, rfl⟩ h.vMax)

theorem checkDwell_lineRest {s : State} (h : LineRest s) : LineRest (checkDwell s) := by
  have l := checkDwell_line s
  refine h.of_drive ?_ ?_ <;> rw [l]
  · exact ⟨rfl, rfl, rfl, rfl, rfl, rfl⟩
  · exact h.vMax

end Sys2Proof.Machine

namespace Sys2Proof.Machine

/-- A plain write leaves the drive alone, and v_max unless it is the point written. -/
theorem storePlain_drive (p : Point) (v : Int) (s : State) :
    s.line.sameDrive (storePlain p v s).line ∧
      ((storePlain p v s).line.vMax = s.line.vMax ∨ (p = .vMax ∧ (storePlain p v s).line.vMax = v)) := by
  cases p
  case vMax => exact ⟨⟨rfl, rfl, rfl, rfl, rfl, rfl⟩, .inr ⟨rfl, rfl⟩⟩
  case countsPerMm =>
    simp only [storePlain]
    split <;> exact ⟨⟨rfl, rfl, rfl, rfl, rfl, rfl⟩, .inl rfl⟩
  case overheatMargin =>
    have l := raiseLimits_line { s with loops.overheatMargin := v }
    exact ⟨LineUnit.sameDrive_of_eq l, .inl (congrArg LineUnit.vMax l)⟩
  case standbyTemp =>
    simp only [storePlain]
    split
    · exact (refreshHeatSetpoints_drive { s with loops.standbyTemp := v }).imp_right .inl
    · exact ⟨⟨rfl, rfl, rfl, rfl, rfl, rfl⟩, .inl rfl⟩
  all_goals exact ⟨⟨rfl, rfl, rfl, rfl, rfl, rfl⟩, .inl rfl⟩

/-- Every write of a point leaves the drive alone, and v_max in its range (Table 3-3). -/
theorem settingWrite_drive (p : Point) (v : Int) (s : State) :
    s.line.sameDrive (settingWrite p v s).state.line ∧
      ((settingWrite p v s).state.line.vMax = s.line.vMax ∨
        (settingWrite p v s).state.line.vMax = clampTo 50 2000 v) := by
  have he : ∀ l, l = s.line → s.line.sameDrive l ∧ (l.vMax = s.line.vMax ∨ l.vMax = clampTo 50 2000 v) :=
    fun l e => ⟨LineUnit.sameDrive_of_eq e, .inl (by rw [e])⟩
  unfold settingWrite
  split
  · refine he _ ?_
    unfold writeLinkSilence silenceOnWrite
    dsimp only
    split
    · rfl
    · split <;> rfl
  · exact he _ rfl
  · exact he _ rfl
  · exact he _ rfl
  · refine he _ ?_
    unfold writeLoopOutput
    dsimp only
    split <;> rfl
  · refine he _ ?_
    unfold writeLoopMode
    dsimp only
    split
    · exact (refreshLoop_units ..).2.1
    · split
      · exact (refreshLoop_units ..).2.1
      · rfl
  · refine he _ ?_
    unfold writeOutSource
    split <;> rfl
  · unfold writePlain
    dsimp only
    refine (storePlain_drive _ _ s).imp_right (Or.imp_right ?_)
    rintro ⟨rfl, e⟩
    exact e

theorem settingWrite_lineRest (p : Point) (v : Int) {s : State} (h : LineRest s) :
    LineRest (settingWrite p v s).state := by
  obtain ⟨d, e | e⟩ := settingWrite_drive p v s
  · exact h.of_drive d (by rw [e]; exact h.vMax)
  · exact h.of_drive d (by rw [e]; exact ⟨le_clampTo (by decide) v, clampTo_le (by decide) v⟩)

/-- No hand-over and no reaction moves a web that rests. -/
theorem lineRest_kept : Kept LineRest where
  output _ _ h := h.of_line rfl
  watch _ _ _ h := h.of_line rfl
  levels _ _ h := h.of_line rfl
  deferred _ _ h := h.of_line rfl
  free _ h := h.of_line rfl
  hold _ _ h _ := h.of_line rfl
  raise k d s h := h.of_line (record_units k d s).1
  write p v _ h _ := settingWrite_lineRest p v h
  ramp t r _ h := startRamp_lineRest t r h
  abandon _ h := abandonRamp_lineRest h
  lift _ h := liftNip_lineRest h
  stop _ h := stopLine_lineRest h
  heatHold _ h := setHeatHold_lineRest true h
  beacon _ h := h.of_drive ⟨rfl, rfl, rfl, rfl, rfl, rfl⟩ h.vMax
  report _ s h := h.of_line (offerReport_units _ s).1
  safe _ h _ := safeLine_lineRest h

/-- R13: the line between a taken RUN and the nip that it turns on. -/
theorem engaging_lineRest {t : State} (v : 50 ≤ t.line.vMax ∧ t.line.vMax ≤ 2000)
    (hm : t.line.mode = .running) (hr : t.line.reference = 0) (ht : t.line.target = 0)
    (ho : t.line.owner = .line) : LineRest t where
  vMax := v
  rest h := by rw [hm] at h; exact absurd h (by decide)
  engaging _ := ⟨hr, ht⟩
  stopping _ := ht
  phase h := absurd hm h
  owner h := absurd (ho.symm.trans h) (by decide)

theorem nipField_lineRest (n : NipState) {s : State} (h : LineRest s) :
    LineRest { s with line.nip := n } := h.of_drive ⟨rfl, rfl, rfl, rfl, rfl, rfl⟩ h.vMax

theorem liftDone_lineRest {s : State} (h : LineRest s) : LineRest (liftDone s) :=
  h.of_line (liftDone_line s)

theorem nipOn_lineRest {s : State} (h : LineRest s) : LineRest (nipOn s) := by
  unfold nipOn
  split
  · split
    · exact engageComplete_lineRest (nipField_lineRest _ h)
    · exact nipField_lineRest _ h
  · dsimp only
    split
    · exact engageComplete_lineRest (nipField_lineRest _ (liftDone_lineRest h))
    · exact nipField_lineRest _ (liftDone_lineRest h)
  · exact engageComplete_lineRest h
  · exact h
  · exact nipField_lineRest _ h

theorem feedbackActive_lineRest {s : State} (h : LineRest s) : LineRest (feedbackActive s) := by
  unfold feedbackActive
  split
  · exact engageComplete_lineRest (nipField_lineRest _ h)
  · exact nipField_lineRest _ h
  all_goals exact h

/-- R7, R8: a reference that reaches its target ends a ramp of an action and leaves the rest as it was. -/
theorem targetReached_lineRest {s : State} (h : LineRest s) : LineRest (targetReached s) := by
  have l := ownedRampReached_line s
  have h1 : LineRest (ownedRampReached s) := by
    constructor <;> rw [l]
    · exact h.vMax
    · exact h.rest
    · exact h.engaging
    · exact h.stopping
    · exact h.phase
    · exact fun hc => nomatch hc
  unfold targetReached
  dsimp only
  split
  · next hm =>
    split
    · exact .moving h1.vMax hm (.inr rfl)
    · exact h1
  · next hm =>
    split
    · next hr => exact stoppingComplete_lineRest h1 hm hr
    · exact h1
  all_goals exact h1

/-- R7: the reference moves in RUNNING past ENGAGING, STOPPING and THREADING alone. -/
theorem stepReference_lineRest {s : State} (h : LineRest s) : LineRest (stepReference s) := by
  unfold stepReference
  split
  · exact h
  · next hne =>
    have hrest : restMode s.line.mode ≠ true := fun hc =>
      hne ((h.rest hc).1.trans (h.rest hc).2.1.symm)
    have heng : s.line.phase ≠ .engaging := fun hc =>
      hne ((h.engaging hc).1.trans (h.engaging hc).2.symm)
    have h1 : LineRest (refreshLoops { s with line.reference := steppedReference s.line }) := by
      have l := (refreshLoops_units { s with line.reference := steppedReference s.line }).2.1
      constructor <;> rw [l]
      · exact h.vMax
      · exact fun hc => absurd hc hrest
      · exact fun hc => absurd hc heng
      · exact h.stopping
      · exact h.phase
      · intro ho
        have e := (rampTakesEffect_iff s).mp (h.owner ho)
        exact (rampTakesEffect_iff _).mpr (by rw [l]; exact e)
    dsimp only
    split
    · exact targetReached_lineRest h1
    · exact h1

theorem nipLotAtLine_lineRest (old new : Option Lot) {s : State} (h : LineRest s) :
    LineRest (nipLotAtLine old new s) := by
  unfold nipLotAtLine
  dsimp only
  split
  · exact h
  · split
    · next v _ hc =>
      have l := (setLineTarget_spec v .rampRate s).2.1
      unfold rampPhase
      apply LineRest.moving <;> dsimp only <;> rw [l]
      · exact h.vMax
      · exact hc.1
      · dsimp only
        split
        · exact .inr rfl
        · exact .inl rfl
    · exact h

theorem startHeat_lineRest {s : State} (h : LineRest s) (hm : s.line.mode = .off) :
    LineRest (startHeat s) := by
  have l := setHeatHold_line false s
  exact setMode_lineRest _ (setHeatHold_lineRest false h) (by rw [l]; simp [restMode, hm])

theorem startCool_lineRest {s : State} (h : LineRest s)
    (hm : s.line.mode = .warming ∨ s.line.mode = .ready) : LineRest (startCool s) := by
  have h1 := setMode_lineRest .off h (by rcases hm with e | e <;> rw [e] <;> rfl)
  have h2 := setHeatHold_lineRest false h1
  have hoff : restMode (setHeatHold false (setMode .off .noPhase s)).line.mode = true := by
    rw [setHeatHold_line, (setMode_spec ..).2.1]
    rfl
  refine nipOff_lineRest (h2.of_drive ⟨rfl, rfl, rfl, rfl, ?_, rfl⟩ h2.vMax)
  exact (h2.rest hoff).2.2.symm

theorem readyToMove_mode {s : State} (h : readyToMove s = true) : s.line.mode = .ready := by
  simp only [readyToMove, Bool.and_eq_true, beq_iff_eq] at h
  exact h.1.1

theorem startRun_lineRest {s : State} (h : LineRest s) (hm : s.line.mode = .ready) :
    LineRest (startRun s) := by
  have hrest : restMode s.line.mode = true := by rw [hm]; rfl
  obtain ⟨hr, ht, -⟩ := h.rest hrest
  have ho := h.owner_line (rampTakesEffect_rest hrest)
  have l := setHeatHold_line false (setMode .running .engaging s)
  rw [(setMode_spec ..).2.1] at l
  refine nipOn_lineRest (engaging_lineRest ?_ ?_ ?_ ?_ ?_) <;> dsimp only <;> rw [l]
  · exact h.vMax
  · exact hr
  · exact ht
  · exact ho

theorem startThread_lineRest {s : State} (h : LineRest s) : LineRest (startThread s) := by
  have l : (startThread s).line.mode = .threading ∧ (startThread s).line.phase = .noPhase ∧
      (startThread s).line.owner = .line ∧ (startThread s).line.vMax = s.line.vMax := by
    unfold startThread
    dsimp only
    rw [(setLineTarget_spec ..).2.1]
    dsimp only
    rw [nipOff_line, (setMode_spec ..).2.1]
    exact ⟨rfl, rfl, rfl, rfl⟩
  obtain ⟨hm, hp, ho, hv⟩ := l
  constructor
  · rw [hv]
    exact h.vMax
  · rw [hm]
    exact fun hc => nomatch hc
  · rw [hp]
    exact fun hc => nomatch hc
  · rw [hm]
    exact fun hc => nomatch hc
  · exact fun _ => hp
  · rw [ho]
    exact fun hc => nomatch hc

/-- The owners of requests move no web that rests. -/
theorem lineRest_ownerKept (c : Instr) : OwnerKept LineRest c where
  toKept := lineRest_kept
  count _ _ h := h.of_drive ⟨rfl, rfl, rfl, rfl, rfl, rfl⟩ h.vMax
  position _ _ h := h.of_drive ⟨rfl, rfl, rfl, rfl, rfl, rfl⟩ h.vMax
  speed _ h := h.of_drive ⟨rfl, rfl, rfl, rfl, rfl, rfl⟩ h.vMax
  step _ h := stepReference_lineRest h
  dwellEnd _ h hm := setMode_lineRest _ h (by rw [hm]; rfl)
  dwell _ h := checkDwell_lineRest h
  nipState n _ h := nipField_lineRest n h
  feedback _ h := feedbackActive_lineRest h
  failed _ h := failedEngage_lineRest h
  beginStop _ h _ := beginStop_lineRest h
  endStop _ h := endStop_lineRest h
  heat _ h hm := startHeat_lineRest h hm
  cool _ h hm := startCool_lineRest h hm
  run _ h hm := startRun_lineRest h (readyToMove_mode hm)
  thread _ h _ := startThread_lineRest h
  clear s h _ hm := setMode_lineRest (s := { s with line.beacon := false }) _
    (h.of_drive ⟨rfl, rfl, rfl, rfl, rfl, rfl⟩ h.vMax) (by dsimp only; rw [hm]; rfl)
  beaconOff _ h := h.of_drive ⟨rfl, rfl, rfl, rfl, rfl, rfl⟩ h.vMax
  nipFb _ _ h := h.of_line rfl
  guardClosed _ _ h := h.of_line rfl
  estopOn _ h _ := h.of_line rfl
  estopOff _ h := h.of_line rfl
  idlePins _ _ h _ _ := h.of_line rfl
  scanner _ _ h _ := h.of_line rfl
  channel _ _ _ h := h.of_line rfl
  loopFresh _ _ h := h.of_line rfl
  loopStale k s h := h.of_line (refreshLoop_units (modifyLoop k _ s) k).2.1
  tension t s h := h.of_line (refreshLoop_units (modifyLoop (spanLoop t) _ s) (spanLoop t)).2.1
  compute _ _ _ h := h.of_line rfl
  limit _ _ _ _ h := h.of_line rfl
  overOn _ _ h := h.of_line rfl
  overOff _ _ h := h.of_line rfl
  span _ _ _ h := h.of_line rfl
  window _ h _ := h.of_line rfl
  onTime _ _ h := h.of_line rfl
  guardedWrite p v _ h _ _ := settingWrite_lineRest p v h
  heatLot l s h _ := (refreshHeatSetpoints_lineRest (s := { s with profiles.heat := l })
    (h.of_line rfl)).of_line (raiseLimits_line _)
  nipLot l s h _ := nipLotAtLine_lineRest _ _ (h.of_line rfl)
  lot _ _ h _ := h.of_line rfl
  colour _ _ _ h _ _ := h.of_line rfl
  fabric _ _ _ h _ _ := h.of_line rfl
  accept _ _ _ _ _ h _ _ _ _ _ := h.of_line (startEngine_loops _).2.1
  edit _ _ _ h _ _ := h.of_line rfl
  remove _ _ h := h.of_line rfl
  idle _ h := h.of_line rfl
  engine s h := h.of_line (startEngine_loops s).2.1
  admitEntries _ _ _ s h := h.of_line (by unfold offerHistory; split <;> rfl)
  clearRings _ _ h := h.of_line rfl
  lockOn _ h _ := h.of_line rfl
  lockOff _ h := h.of_line rfl
  offer r s h := h.of_line (offerReport_units r s).1
  flags _ s h := h.of_line (by unfold clearFlags; dsimp only; split <;> rfl)
  mask _ _ h := h.of_line rfl
  faultClear _ h _ := h.of_line rfl
  restarting _ h := h.of_line rfl
  nvm _ _ h := h.of_line rfl

theorem loadStore_lineRest {s : State} (h : LineRest s) : LineRest (loadStore s) := by
  unfold loadStore
  split
  · exact h
  · next c _ =>
    have h1 : LineRest (c.points.foldl loadPoint s) :=
      foldl_kept _ (loadPoint_kept fun p v _ h => settingWrite_lineRest p v h) _ s h
    exact h1.of_line rfl

theorem blankStart_lineRest (cause : StartCause) (m : Option LineMode) (r : FaultRecord) (s : State) :
    LineRest (blankStart cause m r s) := by
  have v : (50 : Int) ≤ 1200 ∧ (1200 : Int) ≤ 2000 := by decide
  exact .resting v rfl rfl rfl rfl rfl

/-- No command moves a web that rests but by its rules. -/
theorem lineRest_stepKept (c : Instr) : StepKept LineRest c where
  toOwnerKept := lineRest_ownerKept c
  receiver _ _ h := h.of_line rfl
  buffered _ _ h _ := h.of_line rfl
  silence _ _ h := h.of_line rfl
  dequeued s h := h.of_line (dequeue_line s)
  reply _ _ h := h.of_line (transmitNext_units _).1
  sent _ h := h.of_line (transmitNext_units _).1
  blank cause m r p s _ _ _ := blankStart_lineRest cause m r { s with pins := p }
  load _ h _ _ _ := loadStore_lineRest h

/-- Settles O55: the drive's invariant is kept by every operation of every command. -/
theorem lineRestKept : Obligations.LineRestKept := by
  unfold Obligations.LineRestKept
  exact fun _ _ h e => step_kept lineRest_stepKept (fun _ _ h => h.of_line rfl) h e

end Sys2Proof.Machine

namespace Sys2Proof.Machine

/-! ## SAFE is left by CLEAR alone -/

/-- R17, R18: the line is in SAFE. -/
def InSafe (s : State) : Prop := s.line.mode = .safe

theorem InSafe.of_mode {s t : State} (h : InSafe s) (e : t.line.mode = s.line.mode) : InSafe t :=
  e.trans h

theorem InSafe.of_line {s t : State} (h : InSafe s) (e : t.line = s.line) : InSafe t :=
  h.of_mode (by rw [e])

theorem InSafe.not_mode {s : State} (h : InSafe s) {m : LineMode} (hm : m ≠ .safe) :
    s.line.mode ≠ m := fun e => hm (e.symm.trans h)

theorem InSafe.startRamp {s : State} (h : InSafe s) (t r : Int) : startRamp t r s = s :=
  startRamp_else (rampTakesEffect_rest (by rw [h]; rfl)) t r

theorem InSafe.canStop {s : State} (h : InSafe s) : canStop s = false := by
  rw [Machine.canStop, h]
  rfl

theorem nipOff_inSafe {s : State} (h : InSafe s) : InSafe (nipOff s) := h.of_mode (nipOff_drive s).1

theorem liftNip_inSafe {s : State} (h : InSafe s) : InSafe (liftNip s) := by
  have h1 := nipOff_inSafe h
  rwa [liftNip, if_neg (fun hc => h1.not_mode (by decide) hc.1)]

theorem refreshHeatSetpoints_inSafe {s : State} (h : InSafe s) : InSafe (refreshHeatSetpoints s) :=
  h.of_mode (refreshHeatSetpoints_drive s).1.1

theorem setHeatHold_inSafe (b : Bool) {s : State} (h : InSafe s) : InSafe (setHeatHold b s) :=
  refreshHeatSetpoints_inSafe (h.of_mode rfl)

/-- No hand-over and no reaction leaves SAFE. -/
theorem inSafe_kept : Kept InSafe where
  output _ _ h := h
  watch _ _ _ h := h
  levels _ _ h := h
  deferred _ _ h := h
  free _ h := h
  hold _ _ h _ := h
  raise k d s h := h.of_line (record_units k d s).1
  write p v s h _ := h.of_mode (settingWrite_drive p v s).1.1
  ramp t r s h := by rwa [h.startRamp]
  abandon s h := by unfold abandonRamp; split <;> exact h
  lift _ h := liftNip_inSafe h
  stop s h := by rwa [stopLine, h.canStop, if_neg (by decide)]
  heatHold _ h := setHeatHold_inSafe true h
  beacon _ h := h
  report _ s h := h.of_line (offerReport_units _ s).1
  safe _ h hn := absurd h hn

theorem engageComplete_inSafe {s : State} (h : InSafe s) : InSafe (engageComplete s) := by
  rwa [engageComplete_else (fun hc => h.not_mode (by decide) hc.1)]

theorem feedbackActive_inSafe {s : State} (h : InSafe s) : InSafe (feedbackActive s) := by
  unfold feedbackActive
  split
  · exact engageComplete_inSafe (h.of_mode rfl)
  all_goals exact h

theorem stepReference_inSafe {s : State} (h : InSafe s) : InSafe (stepReference s) := by
  have h1 : InSafe (refreshLoops { s with line.reference := steppedReference s.line }) :=
    h.of_mode (by rw [(refreshLoops_units _).2.1])
  have h2 : InSafe (ownedRampReached
      (refreshLoops { s with line.reference := steppedReference s.line })) :=
    h1.of_mode (by rw [ownedRampReached_line])
  unfold stepReference
  split
  · exact h
  · dsimp only
    split
    · unfold targetReached
      dsimp only
      rw [h2]
      exact h2
    · exact h1

theorem nipLotAtLine_inSafe (old new : Option Lot) {s : State} (h : InSafe s) :
    InSafe (nipLotAtLine old new s) := by
  unfold nipLotAtLine
  dsimp only
  split
  · exact h
  · rwa [if_neg (fun hc => h.not_mode (by decide) hc.1)]

/-- R18: no owner of a request but LINE_CMD CLEAR leaves SAFE. -/
theorem inSafe_ownerKept (c : Instr) (hc : isLineClear c = false) : OwnerKept InSafe c where
  toKept := inSafe_kept
  count _ _ h := h
  position _ _ h := h
  speed _ h := h
  step _ h := stepReference_inSafe h
  dwellEnd _ h hm := absurd hm (h.not_mode (by decide))
  dwell s h := h.of_mode (by rw [checkDwell_line])
  nipState _ _ h := h
  feedback _ h := feedbackActive_inSafe h
  failed s h := by rwa [failedEngage, if_neg (fun hc => h.not_mode (by decide) hc.1)]
  beginStop s h hs := by rw [h.canStop] at hs; exact absurd hs (by decide)
  endStop s h := by rwa [endStop, if_neg (fun hc => h.not_mode (by decide) hc.1)]
  heat _ h hm := absurd hm (h.not_mode (by decide))
  cool _ h hm := (hm.elim (h.not_mode (by decide)) (h.not_mode (by decide))).elim
  run _ h hm := absurd (readyToMove_mode hm) (h.not_mode (by decide))
  thread _ h hm := absurd (readyToMove_mode hm) (h.not_mode (by decide))
  clear _ _ hl _ := by rw [hc] at hl; exact absurd hl (by decide)
  beaconOff _ h := h
  nipFb _ _ h := h
  guardClosed _ _ h := h
  estopOn _ h _ := h
  estopOff _ h := h
  idlePins _ _ h _ _ := h
  scanner _ _ h _ := h
  channel _ _ _ h := h
  loopFresh _ _ h := h
  loopStale k s h := h.of_line (refreshLoop_units (modifyLoop k _ s) k).2.1
  tension t s h := h.of_line (refreshLoop_units (modifyLoop (spanLoop t) _ s) (spanLoop t)).2.1
  compute _ _ _ h := h
  limit _ _ _ _ h := h
  overOn _ _ h := h
  overOff _ _ h := h
  span _ _ _ h := h
  window _ h _ := h.of_line rfl
  onTime _ _ h := h
  guardedWrite p v s h _ _ := h.of_mode (settingWrite_drive p v s).1.1
  heatLot l s h _ := (refreshHeatSetpoints_inSafe (s := { s with profiles.heat := l }) h).of_line
    (raiseLimits_line _)
  nipLot _ _ h _ := nipLotAtLine_inSafe _ _ (h.of_line rfl)
  lot _ _ h _ := h
  colour _ _ _ h _ _ := h
  fabric _ _ _ h _ _ := h
  accept _ _ _ _ _ h _ _ _ _ _ := h.of_line (startEngine_loops _).2.1
  edit _ _ _ h _ _ := h
  remove _ _ h := h
  idle _ h := h
  engine s h := h.of_line (startEngine_loops s).2.1
  admitEntries _ _ _ s h := h.of_line (by unfold offerHistory; split <;> rfl)
  clearRings _ _ h := h
  lockOn _ h _ := h
  lockOff _ h := h
  offer r s h := h.of_line (offerReport_units r s).1
  flags _ s h := h.of_line (by unfold clearFlags; dsimp only; split <;> rfl)
  mask _ _ h := h
  faultClear _ h _ := h
  restarting _ h := h
  nvm _ _ h := h

/-- R18: nor does another command that cannot start the part. -/
theorem inSafe_stepKept (c : Instr) (hc : isLineClear c = false) (hs : startsPart c = false) :
    StepKept InSafe c where
  toOwnerKept := inSafe_ownerKept c hc
  receiver _ _ h := h
  buffered _ _ h _ := h
  silence _ _ h := h
  dequeued s h := h.of_line (dequeue_line s)
  reply _ _ h := h.of_line (transmitNext_units _).1
  sent _ h := h.of_line (transmitNext_units _).1
  blank _ _ _ _ _ _ hp _ := by rw [hs] at hp; exact absurd hp (by decide)
  load _ h hm _ _ := absurd hm (h.not_mode (by decide))

/-- R199, R207: with no RESTART taken, the end of a sent frame starts nothing; the link takes the frames that
wait, as it does within any command. -/
theorem frameSent_inSafe {s : State} (h : InSafe s) (hr : s.link.restarting = false)
    (hf : ∀ f ∈ s.link.buffer, isLineClear (requestOf f) = false) : InSafe (frameSent s) := by
  unfold frameSent
  split
  · exact h
  · rw [hr, Bool.false_and, if_neg (by decide)]
    have k := inSafe_stepKept .guardCloses rfl rfl
    refine k.serve _ (fun f hm => inSafe_ownerKept _ (hf f ?_)) _ (k.sent s h)
    rwa [(transmitNext_frame _).buffer] at hm

/-- Settles O59: SAFE is kept by every command but CLEAR and the starts, by the operations they work with. -/
theorem safeLeftByClearAlone : Obligations.SafeLeftByClearAlone := by
  unfold Obligations.SafeLeftByClearAlone
  intro c s t e hsafe hc hstart hf
  rcases hstart with hs | ⟨rfl, hr⟩
  · obtain ⟨u, hu, hP⟩ := (inSafe_stepKept c hc hs).exec s hsafe
      (fun f hm => inSafe_ownerKept _ (hf f hm))
    rw [hu] at e
    cases e
    exact hP
  · cases e
    unfold whenRuns
    split
    · exact frameSent_inSafe hsafe hr hf
    · exact hsafe

end Sys2Proof.Machine

namespace Sys2Proof.Machine

/-! ## The state after reset -/

theorem reset_queueKept : QueueKept State.reset where
  records := by decide
  ids := by decide
  ticketing := by decide

theorem reset_slotsOccupied : SlotsOccupied State.reset where
  colours _ h := nomatch h
  fabrics _ h := nomatch h
  current _ h := nomatch h
  heat _ h := nomatch h
  nip _ h := nomatch h

theorem reset_withinCapacity : WithinCapacity State.reset where
  reports := by decide
  discarded := by decide
  buffer := by decide
  fault _ := rfl

theorem reset_linkServed : LinkServed State.reset where
  served _ _ := rfl
  idle _ := ⟨rfl, rfl⟩

theorem reset_historyKept : HistoryKept State.reset := by
  have e : ∀ z : Fin 6, State.reset.bands.history[z] = [] := by decide
  intro z
  rw [e z]
  exact ⟨by decide, fun _ h => nomatch h⟩

theorem reset_lockHonoured : LockHonoured State.reset := fun h => nomatch h

/-- Settles O53: the reset state is a closed term, and each of its values is read off it. -/
theorem resetMeetsInvariants : Obligations.ResetMeetsInvariants := by
  unfold Obligations.ResetMeetsInvariants
  refine ⟨blankStart_heatersHeld .cold none FaultRecord.empty State.reset,
    blankStart_lineRest .cold none FaultRecord.empty State.reset, reset_queueKept, reset_slotsOccupied,
    reset_withinCapacity, reset_historyKept, reset_linkServed, reset_lockHonoured, ?_⟩
  decide

end Sys2Proof.Machine

namespace Sys2Proof.Machine

/-! ## The safety inputs -/

theorem heldOff_of_estop {s : State} (h : s.pins.estop = true) (z : Fin 6) : heldOff s z = true := by
  simp [heldOff, h]

theorem pendingDuty_heldOff {s : State} {z : Fin 6} (h : heldOff s z = true) : pendingDuty s z = 0 := by
  rw [pendingDuty, if_pos h]

theorem heaterPin_of_off {s : State} {z : Fin 6} (h : (s.loops.zones[z]).heaterOn = false) :
    heaterPin s z = false := by
  rw [heaterPin, h, Bool.and_false, Bool.false_and]

/-- R74: a zone that is held off when the hold is enforced. -/
theorem enforceHold_held {s : State} {z : Fin 6} (h : heldOff s z = true) :
    ((enforceHold s).loops.zones[z]).active = 0 ∧ ((enforceHold s).loops.zones[z]).heaterOn = false := by
  rw [enforceHold_zone, holdZone, if_pos h]
  exact ⟨rfl, rfl⟩

theorem guardMatters_iff (s : State) : guardMatters s = true ↔
    s.line.mode = .running ∨ s.line.mode = .stopping ∨ s.line.mode = .threading := by
  simp [guardMatters, or_assoc]

theorem exec_estopActive {s : State} (hr : s.runs = true) (h : s.pins.estop = false) :
    exec .estopActive s = .next (estopPressed s) := by
  simp [exec, execEstopActive, hr, h]

theorem exec_guardOpens {s : State} (hr : s.runs = true) (h : s.pins.guardClosed = true) :
    exec .guardOpens s = .next (guardOpened s) := by
  simp [exec, execGuardOpens, hr, h]

/-- Settles O5: the hold that an ESTOP enforces reaches every zone; GUARD is a fault where it matters. -/
theorem safetyInputsTaken : Obligations.SafetyInputsTaken := by
  unfold Obligations.SafetyInputsTaken
  refine ⟨fun s hr => ⟨fun he => ?_, ?_⟩, fun s hr => ⟨fun hg hm => ?_, fun hg h1 h2 h3 => ?_, ?_⟩⟩
  · refine ⟨_, exec_estopActive hr he, rfl, by simp [feedPin, enforceHold], fun z => ?_, rfl, rfl, rfl, rfl,
      rfl, rfl, rfl, rfl, rfl, rfl, rfl, rfl, rfl⟩
    have hz : heldOff { s with pins.estop := true } z = true := heldOff_of_estop rfl z
    obtain ⟨ha, hh⟩ := enforceHold_held hz
    exact ⟨heaterPin_of_off hh, ha, pendingDuty_heldOff ((heldOff_enforceHold _ z).trans hz)⟩
  · simp [exec, execEstopReleased, hr]
  · rw [exec_guardOpens hr hg, guardOpened, if_pos ((guardMatters_iff s).mpr hm)]
  · rw [exec_guardOpens hr hg, guardOpened, if_neg]
    rw [guardMatters_iff]
    exact fun hc => hc.elim h1 (fun hc => hc.elim h2 h3)
  · simp [exec, execGuardCloses, hr]

/-! ## LINE_CMD -/

theorem lineCommand_act (act : State → Answer) {payload : List Byte} (s : State)
    (hl : payload.length = 1) (hv : byteAt payload 0 < 6) : lineCommand act payload s = act s := by
  rw [lineCommand, withLength_eq hl, if_pos hv]

theorem lineCommand_range (act : State → Answer) {payload : List Byte} (s : State)
    (hl : payload.length = 1) (hv : 6 ≤ byteAt payload 0) :
    lineCommand act payload s = refuse .range s := by
  rw [lineCommand, withLength_eq hl, if_neg (by omega)]

theorem lineCommand_length (act : State → Answer) {payload : List Byte} (s : State)
    (hl : payload.length ≠ 1) : lineCommand act payload s = refuse .length s := by
  rw [lineCommand, withLength_ne hl]

/-- R19, R197: a command byte that is its row's own: the owner acts, and its status is the reply. -/
theorem takeRow_lineCommand {own : Nat} {tag v : Byte} (act : State → Answer) {s : State}
    (h : takeable ⟨0x04, tag, [v]⟩ s = true) (hv : v.toNat = own) (ho : own < 6) :
    takeRow 6 own ⟨0x04, tag, [v]⟩ (lineCommand act) s =
      putReply ⟨0x84, tag, replyPayload (act (dequeue s)).status (act (dequeue s)).items⟩
        (act (dequeue s)).state := by
  have hb : byteAt [v] 0 = own := by rw [byteAt_zero, hv]
  rw [takeRow_taken _ (selectsRow_own hb) h, lineCommand_act act _ rfl (hb.trans_lt ho)]
  rfl

/-- R198: the reply OK of a LINE_CMD that is taken. -/
theorem takeRow_lineCommand_ok {own : Nat} {tag v : Byte} {act : State → Answer} {s t : State}
    (h : takeable ⟨0x04, tag, [v]⟩ s = true) (hv : v.toNat = own) (ho : own < 6)
    (ha : act (dequeue s) = ⟨t, .ok, []⟩) :
    takeRow 6 own ⟨0x04, tag, [v]⟩ (lineCommand act) s = putReply ⟨0x84, tag, [0]⟩ t := by
  rw [takeRow_lineCommand act h hv ho, ha, replyPayload_ok]

/-- R198: the reply of a LINE_CMD that its owner refuses. -/
theorem takeRow_lineCommand_refused {own : Nat} {tag v : Byte} {act : State → Answer} {s : State}
    {st : Status} (h : takeable ⟨0x04, tag, [v]⟩ s = true) (hv : v.toNat = own) (ho : own < 6)
    (ha : act (dequeue s) = refuse st (dequeue s)) :
    takeRow 6 own ⟨0x04, tag, [v]⟩ (lineCommand act) s =
      putReply ⟨0x84, tag, replyPayload st []⟩ (dequeue s) := by
  rw [takeRow_lineCommand act h hv ho, ha, refuse_state, refuse_status, refuse_items]

@[simp] theorem dequeue_linkSilence (s : State) : (dequeue s).link.linkSilence = s.link.linkSilence := by
  unfold dequeue restartSilence
  split
  · split <;> rfl
  · rfl

theorem fabricOf_dequeue (s : State) (slot : Fin 8) : fabricOf (dequeue s) slot = fabricOf s slot := by
  unfold fabricOf
  rw [dequeue_profiles]

theorem heatAnswer_taken {s : State} (hm : s.line.mode = .off) (hl : s.profiles.current ≠ none)
    (hs : scannerServesHeat s = true) (he : s.pins.estop = false) :
    heatAnswer s = ⟨commit s (startHeat s), .ok, []⟩ := by
  simp [heatAnswer, hm, hl, hs, he]

theorem coolAnswer_taken {s : State} (hm : s.line.mode = .warming ∨ s.line.mode = .ready) :
    coolAnswer s = ⟨commit s (startCool s), .ok, []⟩ := if_pos hm

theorem scannerServesHeat_congr {s t : State} (h : t.meas = s.meas) :
    scannerServesHeat t = scannerServesHeat s := by
  unfold scannerServesHeat
  rw [h]

/-! ## The loops after a change of line mode -/

/-- R68, R69: a loop with base mode OFF is in OFF. -/
theorem settledMode_off {s : State} {k : Fin 10} (h : baseMode s k = .off) : settledMode s k = .off := by
  unfold settledMode
  rw [h]

theorem baseMode_off {s : State} (h : s.line.mode = .off ∨ s.line.mode = .safe) (k : Fin 10) :
    baseMode s k = .off := by
  unfold baseMode
  rcases h with h | h <;> rw [h] <;> split <;> rfl

/-- R68: a heat loop with no override is in AUTO in every mode but OFF and SAFE. -/
theorem settledMode_heat {s : State} {k : Fin 10} (hk : isHeatLoop k = true)
    (hm : s.line.mode ≠ .off ∧ s.line.mode ≠ .safe) (ho : (s.loops.loops[k]).override = none) :
    settledMode s k = .auto := by
  have hb : baseMode s k = .auto := by
    unfold baseMode
    rw [if_pos hk]
    cases e : s.line.mode <;> simp [e] at hm <;> rfl
  unfold settledMode
  rw [hb, ho]
  simp [ownMode, hk]

theorem loopSpan_heat {k : Fin 10} (hk : k.val < 6) : loopSpan k = none := by
  rw [loopSpan, if_pos hk]

theorem isHeatLoop_iff (k : Fin 10) : isHeatLoop k = true ↔ k.val < 6 := by simp [isHeatLoop]

/-- R66: the setpoint of a heat loop. -/
theorem setpointOf_heat {s : State} {k : Fin 10} (hk : k.val < 6) :
    setpointOf s k =
      match s.profiles.heat with
      | none => 0
      | some l => if s.line.heatHold then s.loops.standbyTemp else (fabricOf s l.fabric).tSet := by
  unfold setpointOf heatFabric
  rw [loopSpan_heat hk]
  cases s.profiles.heat <;> rfl

/-- R74: a zone whose loop is OFF is held off. -/
theorem heldOff_of_off {s : State} {z : Fin 6} (h : (s.loops.loops[zoneLoop z]).mode = .off) :
    heldOff s z = true := by
  rw [heldOff, h]
  rfl

/-- R68, R74: a change to OFF or SAFE turns every loop OFF, with no duty left. -/
theorem setMode_off {m : LineMode} (hm : m = .off ∨ m = .safe) (p : RunPhase) (s : State) :
    (∀ k : Fin 10, ((setMode m p s).loops.loops[k]).mode = .off) ∧
      ∀ z : Fin 6, ((setMode m p s).loops.zones[z]).active = 0 ∧
        ((setMode m p s).loops.zones[z]).heaterOn = false := by
  have h : ∀ k : Fin 10, settledMode { s with line.mode := m } k = .off :=
    fun k => settledMode_off (baseMode_off hm k)
  exact ⟨fun k => (setMode_loop m p s k).1.trans (h k), fun z => setMode_zone (h _)⟩

/-! ## HEAT and COOL -/

theorem startHeat_line {s : State} (hm : s.line.mode = .off) : (startHeat s).line =
    { s.line with mode := .warming, phase := .noPhase, heatHold := false, dwell := none } := by
  rw [startHeat, (setMode_spec ..).2.1, (setHeatHold_spec false s).2.1 (by rw [hm]; decide)]

theorem startHeat_lineFrame (s : State) : LineFrame s (startHeat s) :=
  (setHeatHold_spec false s).1.trans (setMode_spec ..).1

/-- R10, R66, R68: the heat loops go to AUTO with the setpoints of the heat lot. -/
theorem startHeat_loop (s : State) {k : Fin 10} (hk : k.val < 6) :
    ((startHeat s).loops.loops[k]).setpoint =
        (match s.profiles.heat with
         | none => 0
         | some l => (fabricOf s l.fabric).tSet) ∧
      ((s.loops.loops[k]).override = none → ((startHeat s).loops.loops[k]).mode = .auto) := by
  obtain ⟨-, -, -, -, -, hl⟩ := setHeatHold_spec false s
  obtain ⟨-, ho, -, hp⟩ := hl k
  obtain ⟨e1, e2⟩ := setMode_loop .warming .noPhase (setHeatHold false s) k
  have hk' := (isHeatLoop_iff k).mpr hk
  unfold startHeat
  rw [e1, e2, hp hk', setpointOf_heat hk]
  refine ⟨by cases s.profiles.heat <;> rfl, fun hn => ?_⟩
  exact settledMode_heat hk' ⟨by simp, by simp⟩ (ho.trans hn)

/-- R10, R203: leaving OFF arms and starts the silence timing. -/
theorem startHeat_silence {s : State} (hm : s.line.mode = .off) (hs : s.link.linkSilence ≠ 0) :
    (startHeat s).link.silenceArmed = true ∧ (startHeat s).link.silence = some s.link.linkSilence := by
  obtain ⟨-, hline, -, hlink, -⟩ := setHeatHold_spec false s
  have hm' : (setHeatHold false s).line.mode = .off := by
    rw [hline (by rw [hm]; decide)]
    exact hm
  obtain ⟨h1, h2⟩ := setMode_silence .warming .noPhase (setHeatHold false s)
  unfold startHeat
  rw [h1, h2, hm', silenceOnMode, if_neg (by decide), hlink, if_pos ⟨rfl, hs⟩]
  exact ⟨rfl, rfl⟩

theorem startHeat_modeChange (s : State) : hasKind (startHeat s).events.set .modeChange = true :=
  (setMode_spec ..).2.2

/-- R12: the line after COOL. -/
theorem startCool_line (s : State) : (startCool s).line =
    { s.line with
      mode := .off, phase := .noPhase, heatHold := false, dwell := none, feed := false
      nip := (nipOff s).line.nip } := by
  have l := (setMode_spec .off .noPhase s).2.1
  have h := (setHeatHold_spec false (setMode .off .noPhase s)).2.1 (by rw [l]; exact nofun)
  have hp : (setHeatHold false (setMode .off .noPhase s)).pins = s.pins :=
    (setHeatHold_frame ..).pins.trans (setMode_frame ..).pins
  rw [startCool, nipOff_line, nipOff_line]
  dsimp only
  rw [h, hp, l]

theorem startCool_lineFrame (s : State) : LineFrame s (startCool s) :=
  (setMode_spec ..).1.trans ((setHeatHold_spec ..).1.trans
    ((feedField_lineFrame _ _).trans (nipOff_spec _).1))

/-- R12, R68, R74: after COOL every loop is OFF, with no duty left. -/
theorem startCool_loops (s : State) :
    (∀ k : Fin 10, ((startCool s).loops.loops[k]).mode = .off) ∧
      ∀ z : Fin 6, ((startCool s).loops.zones[z]).active = 0 ∧
        ((startCool s).loops.zones[z]).heaterOn = false := by
  obtain ⟨-, -, -, -, hz, hl⟩ := setHeatHold_spec false (setMode .off .noPhase s)
  obtain ⟨h1, h2⟩ := setMode_off (.inl rfl) .noPhase s
  have e : (startCool s).loops = (setHeatHold false (setMode .off .noPhase s)).loops :=
    (nipOff_spec _).2.2.2.1
  rw [e, hz]
  exact ⟨fun k => (hl k).1.trans (h1 k), h2⟩

/-- R12, R203: entry into OFF disarms and stops the silence timing. -/
theorem setMode_off_silence (p : RunPhase) (s : State) :
    (setMode .off p s).link.silenceArmed = false ∧ (setMode .off p s).link.silence = none := by
  obtain ⟨h1, h2⟩ := setMode_silence .off p s
  rw [h1, h2, silenceOnMode, if_pos rfl]
  exact ⟨rfl, rfl⟩

theorem startCool_silence (s : State) :
    (startCool s).link.silenceArmed = false ∧ (startCool s).link.silence = none := by
  have e : (startCool s).link = (setMode .off .noPhase s).link :=
    (nipOff_spec _).2.2.2.2.1.trans (setHeatHold_spec ..).2.2.2.1
  rw [e]
  exact setMode_off_silence ..

theorem startCool_modeChange (s : State) : hasKind (startCool s).events.set .modeChange = true := by
  have e : (startCool s).events = (setMode .off .noPhase s).events :=
    (nipOff_spec _).2.2.1.trans (setHeatHold_spec ..).2.2.1
  rw [e]
  exact (setMode_spec ..).2.2

/-- R10, check 3: what the scanner must do for a HEAT. -/
theorem scannerServesHeat_iff (s : State) : scannerServesHeat s = true ↔
    s.meas.scan = .continuous ∧ s.meas.first.val = 0 ∧ 9 ≤ s.meas.last.val ∧
      ∀ c : Fin 16, c.val < 10 → (s.meas.channels[c]).mode ≠ .disabled := by
  simp only [scannerServesHeat, Bool.and_eq_true, beq_iff_eq, decide_eq_true_eq, List.all_eq_true,
    bne_iff_ne, and_assoc]
  refine and_congr_right fun _ => and_congr_right fun _ => and_congr_right fun _ => ?_
  exact ⟨fun h c hc => h ⟨c.val, hc⟩ (List.mem_finRange _),
    fun h k _ => h ⟨k.val, by omega⟩ k.isLt⟩

/-- Settles O6: a taken HEAT and a taken COOL, from what they make of the line, the loops and the link. -/
theorem heatAndCoolTaken : Obligations.HeatAndCoolTaken := by
  unfold Obligations.HeatAndCoolTaken
  refine ⟨fun tag s h hm hl hs he => ?_, fun tag s h hm => ?_, scannerServesHeat_iff⟩
  · have ha : heatAnswer (dequeue s) = ⟨commit (dequeue s) (startHeat (dequeue s)), .ok, []⟩ :=
      heatAnswer_taken (by simpa using hm) (by simpa using hl)
        ((scannerServesHeat_congr (dequeue_meas s)).trans hs) (by simpa using he)
    have e := takeRow_lineCommand_ok (own := 0) h rfl (by decide) ha
    refine ⟨startHeat (dequeue s), congrArg Host.Outcome.next e, ?_⟩
    refine ⟨?_, fun k hk => ?_, fun hz => ?_, startHeat_modeChange _, startHeat_lineFrame _⟩
    · rw [startHeat_line (by simpa using hm), dequeue_line]
    · obtain ⟨e1, e2⟩ := startHeat_loop (dequeue s) hk
      rw [e1, dequeue_profiles]
      refine ⟨?_, fun hn => e2 (by simpa using hn)⟩
      cases s.profiles.heat with
      | none => rfl
      | some l => exact congrArg FabricProfile.tSet (fabricOf_dequeue s l.fabric)
    · have hz' := startHeat_silence (s := dequeue s) (by simpa using hm) (by simpa using hz)
      simpa using hz'
  · have ha : coolAnswer (dequeue s) = ⟨commit (dequeue s) (startCool (dequeue s)), .ok, []⟩ :=
      coolAnswer_taken (by simpa using hm)
    have e := takeRow_lineCommand_ok (own := 1) h rfl (by decide) ha
    obtain ⟨hk, hz⟩ := startCool_loops (dequeue s)
    obtain ⟨h1, h2⟩ := startCool_silence (dequeue s)
    refine ⟨startCool (dequeue s), congrArg Host.Outcome.next e, ?_⟩
    refine ⟨?_, (nipOff_spec _).2.2.2.2.2, hk, fun z => ?_, h1, h2, startCool_modeChange _,
      startCool_lineFrame _⟩
    · rw [startCool_line, dequeue_line]
    · exact ⟨(hz z).1, pendingDuty_heldOff (heldOff_of_off (hk _)), heaterPin_of_off (hz z).2⟩

end Sys2Proof.Machine

namespace Sys2Proof.Machine

/-! ## RUN and THREAD -/

theorem nipRunSpeed_congr {s t : State} (h : t.profiles = s.profiles) :
    nipRunSpeed t = nipRunSpeed s := by
  unfold nipRunSpeed nipFabric fabricOf
  rw [h]

/-- R13, R20: the nip is found closed, or closes at once by its feedback. -/
def closesAtOnce (s : State) : Prop :=
  s.line.nip = .closed ∨ ((s.line.nip = .opened ∨ s.line.nip = .opening) ∧ s.pins.nipFb = true)

/-- R20: the nip still waits for its feedback. -/
def closesLater (s : State) : Prop :=
  s.line.nip = .closing ∨ s.line.nip = .lost ∨
    ((s.line.nip = .opened ∨ s.line.nip = .opening) ∧ s.pins.nipFb = false)

theorem closesAtOnce_or_closesLater (s : State) : closesAtOnce s ∨ closesLater s := by
  unfold closesAtOnce closesLater
  cases s.line.nip <;> cases s.pins.nipFb <;> simp

/-- R13, R20: the nip is turned on in ENGAGING and closes at once: the engage is complete. -/
theorem nipOn_line_closed {s : State} (h : closesAtOnce s) (hm : s.line.mode = .running)
    (hp : s.line.phase = .engaging) : (nipOn s).line =
      { s.line with
        nip := .closed
        target := clampTo 0 s.line.vMax (nipRunSpeed s)
        rateSource := .rampRate
        owner := .line
        phase :=
          if clampTo 0 s.line.vMax (nipRunSpeed s) = s.line.reference then .steady else .ramping } := by
  have hc : ∀ t : State, t.line = s.line → t.profiles = s.profiles →
      (engageComplete { t with line.nip := .closed }).line = { (engageComplete s).line with
        nip := .closed } := by
    intro t hl hf
    rw [engageComplete_line (s := { t with line.nip := .closed }) (by rw [hl]; exact hm)
      (by rw [hl]; exact hp), engageComplete_line hm hp,
      nipRunSpeed_congr (s := s) (t := { t with line.nip := .closed }) hf, hl]
  unfold nipOn
  rcases h with hn | ⟨hn | hn, hf⟩ <;> rw [hn] <;> dsimp only
  · rw [engageComplete_line hm hp, ← hn]
  · rw [if_pos hf, hc s rfl rfl, engageComplete_line hm hp]
  · rw [if_pos hf, hc _ (liftDone_line s) (liftDone_frame s).profiles, engageComplete_line hm hp]

/-- R20: the nip is turned on and waits in CLOSING. -/
theorem nipOn_line_closing {s : State} (h : closesLater s) :
    (nipOn s).line = { s.line with nip := .closing } := by
  unfold nipOn
  rcases h with hn | hn | ⟨hn | hn, hf⟩ <;> rw [hn] <;> dsimp only
  · rw [← hn]
  · rw [if_neg (by rw [hf]; decide)]
  · rw [if_neg (by rw [hf]; decide), liftDone_line]

theorem nipOn_lineFrame (s : State) : LineFrame s (nipOn s) := by
  unfold nipOn
  split
  · split
    · exact (nipField_lineFrame _ s).trans (engageComplete_lineFrame _)
    · exact nipField_lineFrame _ s
  · dsimp only
    split
    · exact (liftDone_lineFrame s).trans ((nipField_lineFrame _ _).trans (engageComplete_lineFrame _))
    · exact (liftDone_lineFrame s).trans (nipField_lineFrame _ _)
  · exact engageComplete_lineFrame s
  · exact .refl s
  · exact nipField_lineFrame _ s

theorem engageComplete_events (s : State) : (engageComplete s).events = s.events := by
  unfold engageComplete
  split
  · exact (setLineTarget_spec (nipRunSpeed s) .rampRate s).2.2.1
  · rfl

theorem liftDone_events (s : State) : (liftDone s).events = s.events := by
  unfold liftDone
  split <;> rfl

theorem nipOn_events (s : State) : (nipOn s).events = s.events := by
  unfold nipOn
  split
  · split
    · exact engageComplete_events _
    · rfl
  · dsimp only
    split
    · exact (engageComplete_events _).trans (liftDone_events s)
    · exact liftDone_events s
  · exact engageComplete_events s
  · rfl
  · rfl

/-- R13: the state that a taken RUN leaves before NIP is turned on. -/
def runBegun (s : State) : State :=
  { setHeatHold false (setMode .running .engaging s) with line.feed := true }

theorem runBegun_line (s : State) : (runBegun s).line =
    { s.line with
      mode := .running, phase := .engaging, dwell := none, heatHold := false, feed := true } := by
  have l := (setMode_spec .running .engaging s).2.1
  unfold runBegun
  dsimp only
  rw [(setHeatHold_spec ..).2.1 (by rw [l]; exact nofun), l]

theorem runBegun_lineFrame (s : State) : LineFrame s (runBegun s) :=
  (setMode_spec ..).1.trans ((setHeatHold_spec ..).1.trans (feedField_lineFrame _ _))

theorem startRun_modeChange (s : State) : hasKind (startRun s).events.set .modeChange = true := by
  have e : (startRun s).events = (setMode .running .engaging s).events :=
    (nipOn_events _).trans (setHeatHold_spec ..).2.2.1
  rw [e]
  exact (setMode_spec ..).2.2

theorem runBegun_nip (s : State) :
    (runBegun s).line.nip = s.line.nip ∧ (runBegun s).pins = s.pins := by
  rw [runBegun_line]
  exact ⟨rfl, (runBegun_lineFrame s).pins⟩

/-- R13: a taken RUN whose nip is found closed. -/
theorem startRun_line_closed {s : State} (h : closesAtOnce s) : (startRun s).line =
    { s.line with
      mode := .running, dwell := none, heatHold := false, feed := true, nip := .closed
      target := clampTo 0 s.line.vMax (nipRunSpeed s), rateSource := .rampRate, owner := .line
      phase :=
        if clampTo 0 s.line.vMax (nipRunSpeed s) = s.line.reference then .steady else .ramping } := by
  have l := runBegun_line s
  obtain ⟨hn, hp⟩ := runBegun_nip s
  have hc : closesAtOnce (runBegun s) := by
    unfold closesAtOnce
    rw [hn, hp]
    exact h
  have e : (startRun s).line = (nipOn (runBegun s)).line := rfl
  rw [e, nipOn_line_closed hc (by rw [l]) (by rw [l]), l,
    nipRunSpeed_congr (runBegun_lineFrame s).profiles]

/-- R13: a taken RUN whose nip has to close. -/
theorem startRun_line_closing {s : State} (h : closesLater s) : (startRun s).line =
    { s.line with
      mode := .running, phase := .engaging, dwell := none, heatHold := false, feed := true
      nip := .closing } := by
  obtain ⟨hn, hp⟩ := runBegun_nip s
  have hc : closesLater (runBegun s) := by
    unfold closesLater
    rw [hn, hp]
    exact h
  have e : (startRun s).line = (nipOn (runBegun s)).line := rfl
  rw [e, nipOn_line_closing hc, runBegun_line]

theorem startRun_lineFrame (s : State) : LineFrame s (startRun s) :=
  (runBegun_lineFrame s).trans (nipOn_lineFrame _)

theorem readyToMove_iff (s : State) : readyToMove s = true ↔
    s.line.mode = .ready ∧ s.pins.guardClosed = true ∧ s.pins.estop = false := by
  simp [readyToMove, and_assoc]

/-- R15: the line after THREAD. -/
theorem startThread_line (s : State) : (startThread s).line =
    { s.line with
      mode := .threading, phase := .noPhase, dwell := none, feed := true
      nip := (nipOff s).line.nip, target := clampTo 0 s.line.vMax s.line.vThread
      rateSource := .rampRate, owner := .line } := by
  have l := (setMode_spec .threading .noPhase s).2.1
  have hp : (setMode .threading .noPhase s).pins = s.pins := (setMode_frame ..).pins
  rw [startThread, (setLineTarget_spec ..).2.1, nipOff_line]
  dsimp only
  rw [nipOff_line, l, hp]

theorem startThread_lineFrame (s : State) : LineFrame s (startThread s) :=
  (setMode_spec ..).1.trans ((nipOff_spec _).1.trans
    ((feedField_lineFrame _ _).trans (setLineTarget_spec ..).1))

theorem startThread_modeChange (s : State) : hasKind (startThread s).events.set .modeChange = true := by
  have e : (startThread s).events = (setMode .threading .noPhase s).events :=
    (setLineTarget_spec ..).2.2.1.trans (nipOff_spec _).2.2.1
  rw [e]
  exact (setMode_spec ..).2.2

/-- Settles O7: the line after RUN, by the nip found, and after THREAD. -/
theorem runAndThreadTaken : Obligations.RunAndThreadTaken := by
  unfold Obligations.RunAndThreadTaken
  refine ⟨fun tag s h hm hg he => ?_, fun tag s h hm hg he => ?_⟩
  · have ha : runAnswer (dequeue s) = ⟨commit (dequeue s) (startRun (dequeue s)), .ok, []⟩ :=
      if_pos ((readyToMove_iff _).mpr (by simpa using ⟨hm, hg, he⟩))
    have e := takeRow_lineCommand_ok (own := 2) h rfl (by decide) ha
    have hs : nipRunSpeed (dequeue s) = nipRunSpeed s := nipRunSpeed_congr (dequeue_profiles s)
    refine ⟨startRun (dequeue s), congrArg Host.Outcome.next e, ?_⟩
    have hf := startRun_lineFrame (dequeue s)
    have hk := startRun_modeChange (dequeue s)
    rcases closesAtOnce_or_closesLater (dequeue s) with hc | hc
    · rw [startRun_line_closed hc]
      unfold closesAtOnce at hc
      rw [dequeue_line, dequeue_pins] at hc
      rw [dequeue_line, hs]
      refine ⟨rfl, rfl, rfl, rfl, rfl, fun _ => ⟨rfl, rfl, rfl, rfl, rfl⟩, fun hn => ?_, hk, hf⟩
      revert hc hn
      cases s.line.nip <;> cases s.pins.nipFb <;> simp
    · rw [startRun_line_closing hc]
      unfold closesLater at hc
      rw [dequeue_line, dequeue_pins] at hc
      rw [dequeue_line]
      refine ⟨rfl, rfl, rfl, rfl, rfl, fun hn => ?_, fun _ => ⟨rfl, rfl, rfl⟩, hk, hf⟩
      revert hc hn
      cases s.line.nip <;> cases s.pins.nipFb <;> simp
  · have ha : threadAnswer (dequeue s) = ⟨commit (dequeue s) (startThread (dequeue s)), .ok, []⟩ :=
      if_pos ((readyToMove_iff _).mpr (by simpa using ⟨hm, hg, he⟩))
    have e := takeRow_lineCommand_ok (own := 4) h rfl (by decide) ha
    refine ⟨startThread (dequeue s), congrArg Host.Outcome.next e, ?_⟩
    refine ⟨?_, (nipOff_spec _).2.2.2.2.2, startThread_modeChange _, startThread_lineFrame _⟩
    rw [startThread_line, dequeue_line]

/-! ## STOP -/

theorem canStop_iff (s : State) :
    canStop s = true ↔ s.line.mode = .running ∨ s.line.mode = .threading := by
  simp [canStop]

theorem stopCommitted_taken {s : State} (h : canStop s = true) : stopCommitted s =
    commit (commit s (beginStop s)) (endStop (commit s (beginStop s))) := by
  rw [stopCommitted, if_pos h]

/-- R16: the line in STOPPING, where the clamp of the target 0 has no effect. -/
theorem beginStop_line_zero {s : State} (h : 0 ≤ s.line.vMax) : (beginStop s).line =
    { s.line with
      mode := .stopping, phase := .noPhase, dwell := none, target := 0, rateSource := .stopRate
      owner := .line } := by
  rw [beginStop_line, clampTo_zero h]

/-- R16: a stop that finds the reference at 0 ends. -/
theorem endStop_ended {s : State} (hm : s.line.mode = .stopping) (hr : s.line.reference = 0) :
    endStop s = stoppingComplete s := if_pos ⟨hm, hr⟩

theorem endStop_standing {s : State} (h : s.line.mode ≠ .stopping ∨ s.line.reference ≠ 0) :
    endStop s = s := if_neg (not_and_or.mpr h)

/-- Settles O8: the line in STOPPING and after the end of the stop. -/
theorem stopTakenAndEnded : Obligations.StopTakenAndEnded := by
  unfold Obligations.StopTakenAndEnded
  refine ⟨fun tag s h hm hv => ?_, fun s => ⟨fun hm hr => ?_, endStop_standing⟩⟩
  · have ha : stopAnswer (dequeue s) = ⟨stopCommitted (dequeue s), .ok, []⟩ :=
      if_pos ((canStop_iff _).mpr (by simpa using hm))
    rw [stopCommitted_taken ((canStop_iff _).mpr (by simpa using hm))] at ha
    have e := takeRow_lineCommand_ok (own := 3) h rfl (by decide) ha
    refine ⟨beginStop (dequeue s), _, congrArg Host.Outcome.next e, rfl, ?_⟩
    refine ⟨?_, beginStop_modeChange _, beginStop_lineFrame _⟩
    rw [beginStop_line_zero (by simpa using hv), dequeue_line]
  · rw [endStop_ended hm hr, stoppingComplete_line]
    refine ⟨rfl, rfl, rfl, hr, fun hl => ?_, fun hl => ?_, stoppingComplete_modeChange s,
      stoppingComplete_lineFrame s⟩
    · dsimp only
      rw [if_pos hl]
      exact liftedNip_output ..
    · dsimp only
      rw [if_neg (by rw [hl]; decide)]

/-! ## CLEAR -/

theorem safeCanClear_iff (s : State) : safeCanClear s = true ↔
    s.pins.estop = false ∧ s.pins.guardClosed = true ∧ s.events.fault.kinds = 0 := by
  simp [safeCanClear, FaultRecord.isEmpty, and_assoc]

theorem clearAnswer_safe {s : State} (hm : s.line.mode = .safe) : clearAnswer s =
    if safeCanClear s then
      ⟨commit s (setMode .off .noPhase { s with line.beacon := false }), .ok, []⟩
    else refuse .state s := if_pos hm

theorem clearAnswer_other {s : State} (hm : s.line.mode ≠ .safe) : clearAnswer s =
    if s.line.beacon then ⟨commit s { s with line.beacon := false }, .ok, []⟩
    else refuse .mode s := if_neg hm

theorem beaconField_lineFrame (b : Bool) (s : State) : LineFrame s { s with line.beacon := b } :=
  .of_units (beaconField_frame b s) ⟨rfl, rfl, rfl, rfl, rfl, rfl, rfl, rfl⟩

/-- Settles O9: CLEAR in SAFE, by the conditions of R18, and in the other modes, by the beacon. -/
theorem clearTaken : Obligations.ClearTaken := by
  unfold Obligations.ClearTaken
  intro tag s h
  refine ⟨fun hm he hg hf => ?_, fun hm hc => ?_, fun hm hb => ?_, fun hm hb => ?_⟩
  · have ha := clearAnswer_safe (s := dequeue s) (by simpa using hm)
    rw [if_pos ((safeCanClear_iff _).mpr (by simpa using ⟨he, hg, hf⟩))] at ha
    have e := takeRow_lineCommand_ok (own := 5) h rfl (by decide) ha
    obtain ⟨hl, l, hk⟩ := setMode_spec .off .noPhase { dequeue s with line.beacon := false }
    obtain ⟨h1, h2⟩ := setMode_off_silence .noPhase { dequeue s with line.beacon := false }
    refine ⟨setMode .off .noPhase { dequeue s with line.beacon := false },
      congrArg Host.Outcome.next e, ?_⟩
    refine ⟨?_, h1, h2, hk, (beaconField_lineFrame false _).trans hl⟩
    rw [l]
    dsimp only
    rw [dequeue_line]
  · have ha := clearAnswer_safe (s := dequeue s) (by simpa using hm)
    rw [if_neg (by
      rw [safeCanClear_iff, dequeue_pins, dequeue_events]
      rintro ⟨h1, h2, h3⟩
      simp [h1, h2, h3] at hc)] at ha
    exact congrArg Host.Outcome.next (takeRow_lineCommand_refused (own := 5) h rfl (by decide) ha)
  · have ha := clearAnswer_other (s := dequeue s) (by simpa using hm)
    rw [if_pos (by simpa using hb)] at ha
    exact congrArg Host.Outcome.next (takeRow_lineCommand_ok (own := 5) h rfl (by decide) ha)
  · have ha := clearAnswer_other (s := dequeue s) (by simpa using hm)
    rw [if_neg (by simpa using hb)] at ha
    exact congrArg Host.Outcome.next (takeRow_lineCommand_refused (own := 5) h rfl (by decide) ha)

end Sys2Proof.Machine

namespace Sys2Proof.Machine

/-! ## LINE_CMD and SCAN_CMD that are not taken -/

/-- Log 23: the payloads that a row of LINE_CMD or SCAN_CMD carries. -/
theorem selectsRow_iff (codes own : Nat) (payload : List Byte) : selectsRow codes own payload = true ↔
    ∀ b rest, payload = b :: rest → b.toNat = own ∨ codes ≤ b.toNat := by
  cases payload with
  | nil => exact ⟨fun _ _ _ h => (nomatch h), fun _ => rfl⟩
  | cons b l =>
    simp only [selectsRow, Bool.or_eq_true, decide_eq_true_eq]
    refine ⟨fun h _ _ e => ?_, fun h => h b l rfl⟩
    cases e
    exact h

/-- Log 23: a row given another row's payload does nothing. -/
theorem takeRow_foreign {codes own : Nat} {f : Frame} (a : List Byte → State → Answer) (s : State)
    (h : selectsRow codes own f.payload ≠ true) : takeRow codes own f a s = s := if_neg h

/-- R198: a request that its owner refuses is answered with the status alone. -/
theorem takeRow_refused {codes own : Nat} {f : Frame} {a : List Byte → State → Answer} {s : State}
    {st : Status} (hr : selectsRow codes own f.payload = true) (h : takeable f s = true)
    (ha : a f.payload (dequeue s) = refuse st (dequeue s)) :
    takeRow codes own f a s = putReply ⟨f.kind + 0x80, f.tag, replyPayload st []⟩ (dequeue s) := by
  rw [takeRow_taken _ hr h, ha, refuse_state, refuse_status, refuse_items]
  rfl

theorem heatAnswer_mode {s : State} (hm : s.line.mode ≠ .off) : heatAnswer s = refuse .mode s :=
  if_pos hm

theorem heatAnswer_noLot {s : State} (hm : s.line.mode = .off) (hl : s.profiles.current = none) :
    heatAnswer s = refuse .noLot s := by
  rw [heatAnswer, if_neg (not_not.mpr hm), if_pos hl]

/-- R10: a scanner that cannot serve the HEAT, or ESTOP, refuses it with MODE. -/
theorem heatAnswer_unserved {s : State} (hm : s.line.mode = .off) (hl : s.profiles.current ≠ none)
    (h : scannerServesHeat s = false ∨ s.pins.estop = true) : heatAnswer s = refuse .mode s := by
  rw [heatAnswer, if_neg (not_not.mpr hm), if_neg hl]
  rcases h with h | h
  · rw [if_pos h]
  · rw [if_pos h, ite_self]

theorem not_readyToMove {s : State}
    (h : s.line.mode ≠ .ready ∨ s.pins.guardClosed = false ∨ s.pins.estop = true) :
    ¬readyToMove s = true := by
  rw [readyToMove_iff]
  rintro ⟨h1, h2, h3⟩
  simp [h1, h2, h3] at h

/-- The rows of LINE_CMD differ in their code and their owner's answer alone. -/
theorem lineCmd_row {k : Nat} {row : Byte → List Byte → Instr}
    (h : (k, row) ∈ [(0, Instr.lineCmdHeat), (1, .lineCmdCool), (2, .lineCmdRun), (3, .lineCmdStop),
      (4, .lineCmdThread), (5, .lineCmdClear)]) :
    ∃ act : State → Answer, ∀ tag payload s,
      exec (row tag payload) s = .next (takeRow 6 k ⟨0x04, tag, payload⟩ (lineCommand act) s) := by
  simp only [List.mem_cons, Prod.mk.injEq, List.not_mem_nil, or_false] at h
  rcases h with ⟨rfl, rfl⟩ | ⟨rfl, rfl⟩ | ⟨rfl, rfl⟩ | ⟨rfl, rfl⟩ | ⟨rfl, rfl⟩ | ⟨rfl, rfl⟩
  · exact ⟨heatAnswer, fun _ _ _ => rfl⟩
  · exact ⟨coolAnswer, fun _ _ _ => rfl⟩
  · exact ⟨runAnswer, fun _ _ _ => rfl⟩
  · exact ⟨stopAnswer, fun _ _ _ => rfl⟩
  · exact ⟨threadAnswer, fun _ _ _ => rfl⟩
  · exact ⟨clearAnswer, fun _ _ _ => rfl⟩

/-- The rows of SCAN_CMD likewise. -/
theorem scanCmd_row {k : Nat} {row : Byte → List Byte → Instr}
    (h : (k, row) ∈ [(0, Instr.scanCmdContinuous), (1, .scanCmdSingle), (2, .scanCmdStop),
      (3, .scanCmdConfigure)]) :
    ∃ act : List Byte → State → Answer, ∀ tag payload s,
      exec (row tag payload) s = .next (takeRow 4 k ⟨0x11, tag, payload⟩ (scanCommand act) s) := by
  simp only [List.mem_cons, Prod.mk.injEq, List.not_mem_nil, or_false] at h
  rcases h with ⟨rfl, rfl⟩ | ⟨rfl, rfl⟩ | ⟨rfl, rfl⟩ | ⟨rfl, rfl⟩
  · exact ⟨scanStartAnswer .continuous, fun _ _ _ => rfl⟩
  · exact ⟨scanStartAnswer .single, fun _ _ _ => rfl⟩
  · exact ⟨scanStopAnswer, fun _ _ _ => rfl⟩
  · exact ⟨scanConfigureAnswer, fun _ _ _ => rfl⟩

/-- R200, log 23: the length of a SCAN_CMD, by its command byte. -/
theorem scanLength_head (payload : List Byte) :
    scanLength payload = if payload.head? = some 3 then 4 else 1 := by
  cases payload with
  | nil => rfl
  | cons b l =>
    have e : (b.toNat = 3) = (b = 3#8) := propext (BitVec.toNat_eq (y := 3#8)).symm
    simp [scanLength, e]

theorem scanCommand_length (act : List Byte → State → Answer) {payload : List Byte} (s : State)
    (h : payload.length ≠ scanLength payload) : scanCommand act payload s = refuse .length s := by
  rw [scanCommand, withLength_ne h]

/-- R28, check 1: outside OFF a SCAN_CMD is refused with MODE. -/
theorem scanCommand_mode (act : List Byte → State → Answer) {payload : List Byte} {s : State}
    (hl : payload.length = scanLength payload) (hm : s.line.mode ≠ .off) :
    scanCommand act payload s = refuse .mode s := by
  rw [scanCommand, withLength_eq hl, if_pos hm]

theorem scanCommand_range (act : List Byte → State → Answer) {payload : List Byte} {s : State}
    (hl : payload.length = scanLength payload) (hm : s.line.mode = .off) (hv : 4 ≤ byteAt payload 0) :
    scanCommand act payload s = refuse .range s := by
  rw [scanCommand, withLength_eq hl, if_neg (not_not.mpr hm), if_pos hv]

theorem scanCommand_act (act : List Byte → State → Answer) {payload : List Byte} {s : State}
    (hl : payload.length = scanLength payload) (hm : s.line.mode = .off) (hv : byteAt payload 0 < 4) :
    scanCommand act payload s = act payload s := by
  rw [scanCommand, withLength_eq hl, if_neg (not_not.mpr hm), if_neg (by omega)]

theorem scanLength_configure (f l t : Byte) : ([3, f, l, t] : List Byte).length = scanLength [3, f, l, t] :=
  rfl

theorem scanStartAnswer_busy (state : ScanState) (payload : List Byte) {s : State}
    (h : s.meas.scan ≠ .idle) : scanStartAnswer state payload s = refuse .busy s := if_neg h

theorem scanConfigureAnswer_busy (payload : List Byte) {s : State} (h : s.meas.scan ≠ .idle) :
    scanConfigureAnswer payload s = refuse .busy s := if_neg h

/-- R28, check 4: no range and sample time are read from bytes that are not allowed. -/
theorem scanRange_none {f l t : Byte}
    (h : l.toNat < f.toNat ∨ 15 < l.toNat ∨ t.toNat = 0 ∨ 8 < t.toNat) :
    scanRange [3, f, l, t] = none := by
  have e1 : byteAt [3, f, l, t] 1 = f.toNat := by simp
  have e2 : byteAt [3, f, l, t] 2 = l.toNat := by simp [byteAt, fieldAt, leValue]
  have e3 : byteAt [3, f, l, t] 3 = t.toNat := by simp [byteAt, fieldAt, leValue]
  unfold scanRange asFin
  rw [e1, e2, e3]
  by_cases hf : f.toNat < 16
  · by_cases hl : l.toNat < 16
    · simp only [dif_pos hf, dif_pos hl, Fin.mk_le_mk]
      rw [if_neg (by omega)]
    · simp only [dif_neg hl, dif_pos hf]
  · simp only [dif_neg hf]

theorem scanConfigureAnswer_range {f l t : Byte} {s : State} (hs : s.meas.scan = .idle)
    (h : l.toNat < f.toNat ∨ 15 < l.toNat ∨ t.toNat = 0 ∨ 8 < t.toNat) :
    scanConfigureAnswer [3, f, l, t] s = refuse .range s := by
  rw [scanConfigureAnswer, if_pos hs, scanRange_none h]

/-- R10, R12, R13, R15, R16: a LINE_CMD that its owner refuses changes nothing. -/
theorem lineCmd_refused (tag : Byte) (s : State) :
    let d := dequeue s
    (takeable ⟨0x04, tag, [0]⟩ s = true →
      (s.line.mode ≠ .off → exec (.lineCmdHeat tag [0]) s = .next (putReply ⟨0x84, tag, [6]⟩ d)) ∧
      (s.line.mode = .off → s.profiles.current = none →
        exec (.lineCmdHeat tag [0]) s = .next (putReply ⟨0x84, tag, [13]⟩ d)) ∧
      (s.line.mode = .off → s.profiles.current ≠ none →
        scannerServesHeat s = false ∨ s.pins.estop = true →
        exec (.lineCmdHeat tag [0]) s = .next (putReply ⟨0x84, tag, [6]⟩ d))) ∧
    (takeable ⟨0x04, tag, [1]⟩ s = true → s.line.mode ≠ .warming → s.line.mode ≠ .ready →
      exec (.lineCmdCool tag [1]) s = .next (putReply ⟨0x84, tag, [6]⟩ d)) ∧
    (takeable ⟨0x04, tag, [2]⟩ s = true →
      s.line.mode ≠ .ready ∨ s.pins.guardClosed = false ∨ s.pins.estop = true →
      exec (.lineCmdRun tag [2]) s = .next (putReply ⟨0x84, tag, [6]⟩ d)) ∧
    (takeable ⟨0x04, tag, [4]⟩ s = true →
      s.line.mode ≠ .ready ∨ s.pins.guardClosed = false ∨ s.pins.estop = true →
      exec (.lineCmdThread tag [4]) s = .next (putReply ⟨0x84, tag, [6]⟩ d)) ∧
    (takeable ⟨0x04, tag, [3]⟩ s = true → s.line.mode ≠ .running → s.line.mode ≠ .threading →
      exec (.lineCmdStop tag [3]) s = .next (putReply ⟨0x84, tag, [6]⟩ d)) := by
  have hd := dequeue_line s
  have hp := dequeue_pins s
  have hl := dequeue_profiles s
  have hs := scannerServesHeat_congr (dequeue_meas s)
  refine ⟨fun h => ⟨fun hm => ?_, fun hm hn => ?_, fun hm hn hc => ?_⟩, fun h h1 h2 => ?_, fun h hc => ?_,
    fun h hc => ?_, fun h h1 h2 => ?_⟩
  · exact congrArg Host.Outcome.next (takeRow_lineCommand_refused (own := 0) h rfl (by decide)
      (heatAnswer_mode (by rwa [hd])))
  · exact congrArg Host.Outcome.next (takeRow_lineCommand_refused (own := 0) h rfl (by decide)
      (heatAnswer_noLot (by rwa [hd]) (by rwa [hl])))
  · exact congrArg Host.Outcome.next (takeRow_lineCommand_refused (own := 0) h rfl (by decide)
      (heatAnswer_unserved (by rwa [hd]) (by rwa [hl]) (by rwa [hs, hp])))
  · have hc : ¬((dequeue s).line.mode = .warming ∨ (dequeue s).line.mode = .ready) := by
      rw [hd]
      exact not_or.mpr ⟨h1, h2⟩
    exact congrArg Host.Outcome.next (takeRow_lineCommand_refused (act := coolAnswer) (own := 1) h rfl
      (by decide) (if_neg hc))
  · have hn := not_readyToMove (s := dequeue s) (by rwa [hd, hp])
    exact congrArg Host.Outcome.next (takeRow_lineCommand_refused (act := runAnswer) (own := 2) h rfl
      (by decide) (if_neg hn))
  · have hn := not_readyToMove (s := dequeue s) (by rwa [hd, hp])
    exact congrArg Host.Outcome.next (takeRow_lineCommand_refused (act := threadAnswer) (own := 4) h rfl
      (by decide) (if_neg hn))
  · have hn : ¬canStop (dequeue s) = true := by
      rw [canStop_iff, hd]
      exact not_or.mpr ⟨h1, h2⟩
    exact congrArg Host.Outcome.next (takeRow_lineCommand_refused (act := stopAnswer) (own := 3) h rfl
      (by decide) (if_neg hn))

/-- R28: a SCAN_CMD that the scanner refuses changes nothing. -/
theorem scanCmd_refused (tag f l t : Byte) (s : State) :
    let d := dequeue s
    (s.line.mode ≠ .off →
      (takeable ⟨0x11, tag, [0]⟩ s = true →
        exec (.scanCmdContinuous tag [0]) s = .next (putReply ⟨0x91, tag, [6]⟩ d)) ∧
      (takeable ⟨0x11, tag, [1]⟩ s = true →
        exec (.scanCmdSingle tag [1]) s = .next (putReply ⟨0x91, tag, [6]⟩ d)) ∧
      (takeable ⟨0x11, tag, [2]⟩ s = true →
        exec (.scanCmdStop tag [2]) s = .next (putReply ⟨0x91, tag, [6]⟩ d)) ∧
      (takeable ⟨0x11, tag, [3, f, l, t]⟩ s = true →
        exec (.scanCmdConfigure tag [3, f, l, t]) s = .next (putReply ⟨0x91, tag, [6]⟩ d))) ∧
    (s.line.mode = .off →
      (s.meas.scan ≠ .idle →
        (takeable ⟨0x11, tag, [0]⟩ s = true →
          exec (.scanCmdContinuous tag [0]) s = .next (putReply ⟨0x91, tag, [7]⟩ d)) ∧
        (takeable ⟨0x11, tag, [1]⟩ s = true →
          exec (.scanCmdSingle tag [1]) s = .next (putReply ⟨0x91, tag, [7]⟩ d)) ∧
        (takeable ⟨0x11, tag, [3, f, l, t]⟩ s = true →
          exec (.scanCmdConfigure tag [3, f, l, t]) s = .next (putReply ⟨0x91, tag, [7]⟩ d))) ∧
      (s.meas.scan = .idle → takeable ⟨0x11, tag, [3, f, l, t]⟩ s = true →
        l.toNat < f.toNat ∨ 15 < l.toNat ∨ t.toNat = 0 ∨ 8 < t.toNat →
        exec (.scanCmdConfigure tag [3, f, l, t]) s = .next (putReply ⟨0x91, tag, [11]⟩ d))) := by
  have hd : (dequeue s).line.mode = s.line.mode := by rw [dequeue_line]
  have hs : (dequeue s).meas.scan = s.meas.scan := by rw [dequeue_meas]
  have hsel : selectsRow 4 3 [3, f, l, t] = true := rfl
  refine ⟨fun hm => ?_, fun hm => ⟨fun hi => ?_, fun hi h hr => ?_⟩⟩
  · rw [← hd] at hm
    exact ⟨fun h => congrArg Host.Outcome.next
        (takeRow_refused (own := 0) rfl h (scanCommand_mode _ rfl hm)),
      fun h => congrArg Host.Outcome.next (takeRow_refused (own := 1) rfl h (scanCommand_mode _ rfl hm)),
      fun h => congrArg Host.Outcome.next (takeRow_refused (own := 2) rfl h (scanCommand_mode _ rfl hm)),
      fun h => congrArg Host.Outcome.next (takeRow_refused hsel h
        (scanCommand_mode _ (scanLength_configure f l t) hm))⟩
  · rw [← hd] at hm
    rw [← hs] at hi
    refine ⟨fun h => congrArg Host.Outcome.next (takeRow_refused (st := .busy) (own := 0) rfl h ?_),
      fun h => congrArg Host.Outcome.next (takeRow_refused (st := .busy) (own := 1) rfl h ?_),
      fun h => congrArg Host.Outcome.next (takeRow_refused (st := .busy) hsel h ?_)⟩
    · exact (scanCommand_act _ rfl hm (show byteAt [0] 0 < 4 by decide)).trans
        (scanStartAnswer_busy _ _ hi)
    · exact (scanCommand_act _ rfl hm (show byteAt [1] 0 < 4 by decide)).trans
        (scanStartAnswer_busy _ _ hi)
    · exact (scanCommand_act _ (scanLength_configure f l t) hm (by simp)).trans
        (scanConfigureAnswer_busy _ hi)
  · rw [← hd] at hm
    rw [← hs] at hi
    refine congrArg Host.Outcome.next (takeRow_refused (st := .range) hsel h ?_)
    exact (scanCommand_act _ (scanLength_configure f l t) hm (by simp)).trans
      (scanConfigureAnswer_range hi hr)

/-- Settles O10: each refusal by the check that makes it, once for all rows of a family where the rows agree. -/
theorem lineAndScanRefusals : Obligations.LineAndScanRefusals := by
  unfold Obligations.LineAndScanRefusals
  refine ⟨lineCmd_refused, fun k row tag payload s hrow => ?_, fun k row tag payload s hrow => ?_,
    scanCmd_refused⟩
  · obtain ⟨act, hex⟩ := lineCmd_row hrow
    dsimp only
    rw [hex, ← selectsRow_iff]
    refine ⟨fun hn => by rw [takeRow_foreign _ _ hn], fun hc h => ⟨fun hl => ?_, fun v e hv => ?_⟩⟩
    · exact congrArg Host.Outcome.next (takeRow_refused hc h (lineCommand_length act _ hl))
    · subst e
      exact congrArg Host.Outcome.next (takeRow_refused hc h
        (lineCommand_range act _ rfl (by rw [byteAt_zero]; exact hv)))
  · obtain ⟨act, hex⟩ := scanCmd_row hrow
    dsimp only
    rw [hex, ← selectsRow_iff, ← scanLength_head]
    refine ⟨fun hn => by rw [takeRow_foreign _ _ hn], fun hc h => ⟨fun hl => ?_, fun v e hv => ?_⟩⟩
    · exact congrArg Host.Outcome.next (takeRow_refused hc h (scanCommand_length act _ hl))
    · subst e
      have hb : byteAt [v] 0 = v.toNat := byteAt_zero v []
      have hl : ([v] : List Byte).length = scanLength [v] := by
        rw [scanLength, hb, if_neg (by omega)]
        rfl
      refine ⟨fun hm => ?_, fun hm => ?_⟩
      · exact congrArg Host.Outcome.next (takeRow_refused hc h
          (scanCommand_mode act hl (by rwa [dequeue_line])))
      · exact congrArg Host.Outcome.next (takeRow_refused hc h
          (scanCommand_range act hl (by rwa [dequeue_line]) (by rw [hb]; exact hv)))

end Sys2Proof.Machine

namespace Sys2Proof.Machine

/-! ## The nip's feedback and timings -/

/-- R16: a line that RUN or THREAD keeps moving can be stopped. -/
theorem canStop_of_running {s : State} (h : s.line.mode = .running ∨ s.line.mode = .threading) :
    canStop s = true := (canStop_iff s).mpr h

theorem whenRuns_running {s : State} (h : s.runs = true) (f : State → State) : whenRuns s f = f s :=
  if_pos h

theorem exec_nipFbActive {s : State} (hr : s.runs = true) (h : s.pins.nipFb = false) :
    exec .nipFbActive s = .next (commit s (feedbackActive { s with pins.nipFb := true })) := by
  simp [exec, execNipFbActive, hr, h]

theorem exec_nipFbInactive {s : State} (hr : s.runs = true) (h : s.pins.nipFb = true) :
    exec .nipFbInactive s = .next (feedbackInactive s { s with pins.nipFb := false }) := by
  simp [exec, execNipFbInactive, hr, h]

/-- R20, R167: the level that holds the executor waits on a LIFT. -/
theorem runningAction_lift_iff (s : State) : runningAction s = some .lift ↔
    ∃ w p, s.react.executor = some w ∧ (s.react.levels[w]).runPos = some p ∧
      (s.react.levels[w]).defn.actions[p - 1]? = some .lift := by
  unfold runningAction
  cases he : s.react.executor with
  | none => simp
  | some w =>
    dsimp only
    cases hp : (s.react.levels[w]).runPos with
    | none =>
      refine ⟨fun h => (nomatch h), ?_⟩
      rintro ⟨w', p, hw, hp', -⟩
      cases hw
      rw [hp] at hp'
      exact nomatch hp'
    | some p =>
      refine ⟨fun h => ⟨w, p, rfl, hp, h⟩, ?_⟩
      rintro ⟨w', p', hw, hp', ha⟩
      cases hw
      rw [hp] at hp'
      cases hp'
      exact ha

/-- R21: the line after a failed engage. -/
theorem failedEngage_line {s : State} (hv : 0 ≤ s.line.vMax) (hm : s.line.mode = .running)
    (hp : s.line.phase = .engaging) : (failedEngage s).line =
      { s.line with
        mode := .ready, phase := .noPhase, dwell := none, feed := false, target := 0
        rateSource := .rampRate, owner := .line } := by
  rw [failedEngage, if_pos ⟨hm, hp⟩, endEngage_line, clampTo_zero hv]

theorem failedEngage_ready {s : State} (hv : 0 ≤ s.line.vMax) (hm : s.line.mode = .running)
    (hp : s.line.phase = .engaging) :
    (failedEngage s).line.mode = .ready ∧ (failedEngage s).line.phase = .noPhase ∧
      (failedEngage s).line.feed = false ∧ (failedEngage s).line.target = 0 ∧
      (failedEngage s).line.reference = s.line.reference := by
  rw [failedEngage_line hv hm hp]
  exact ⟨rfl, rfl, rfl, rfl, rfl⟩

/-- Settles O4: the nip by its states, with the stop of R16 and the report of R20. -/
theorem nipFollowsFeedback : Obligations.NipFollowsFeedback := by
  unfold Obligations.NipFollowsFeedback
  refine ⟨fun s => ⟨fun hm hp => ⟨engageComplete_line hm hp, engageComplete_lineFrame s⟩, fun h => ?_⟩,
    fun s hr => ⟨fun hf => ?_, fun hf => ?_, fun hn => ?_, fun hn => ?_⟩, fun s hm hv => ?_, fun s => ?_⟩
  · exact engageComplete_else (not_and_or.mpr h)
  · refine ⟨fun hn => ?_, fun hn => ?_, fun hn => ?_⟩ <;>
      rw [exec_nipFbActive hr hf, feedbackActive] <;> dsimp only <;> rw [hn]
  · have hr' := exec_nipFbInactive hr hf
    refine ⟨fun hn hm => ?_, fun hn hm => ?_, fun hn => ?_, fun hn => ?_⟩ <;>
      rw [hr', feedbackInactive] <;> dsimp only <;> rw [hn] <;> dsimp only
    · rw [if_neg hm]
    · rw [if_pos hm]
  · refine ⟨?_, fun hv hm hp => ?_⟩
    · show Host.Outcome.next (whenRuns s engageTimingEnds) = _
      rw [whenRuns_running hr, engageTimingEnds, if_pos hn]
      rfl
    · exact failedEngage_ready hv hm hp
  · show Host.Outcome.next (whenRuns s liftTimingEnds) = _
    rw [whenRuns_running hr, liftTimingEnds, if_pos hn]
  · exact ⟨beginStop s, _, stopCommitted_taken (canStop_of_running hm), rfl, beginStop_line_zero hv,
      beginStop_modeChange s, beginStop_lineFrame s⟩
  · dsimp only
    rw [← runningAction_lift_iff]
    exact ⟨fun h => if_pos h, fun h => if_neg h⟩

end Sys2Proof.Machine

namespace Sys2Proof.Machine

/-! ## Offers that wait -/

theorem takeMode_react (k : Fin 10) (m : LoopMode) (s : State) : (takeMode k m s).react = s.react := by
  unfold takeMode rearmSpan
  split
  · rfl
  · split
    · rfl
    · split <;> rfl

theorem refreshLoop_react (s : State) (k : Fin 10) : (refreshLoop s k).react = s.react := by
  unfold refreshLoop
  dsimp only
  split
  · exact takeMode_react ..
  · split <;> exact takeMode_react ..

theorem refreshLoops_react (s : State) : (refreshLoops s).react = s.react :=
  foldl_kept (P := fun t => t.react = s.react) refreshLoop
    (fun t k h => (refreshLoop_react t k).trans h) _ s rfl

theorem nipOff_react (s : State) : (nipOff s).react = s.react := by
  unfold nipOff
  split <;> rfl

theorem offerReport_deferred {d : Deferred} (r : Report) {s : State} (h : d ∈ s.react.deferred) :
    d ∈ (offerReport r s).react.deferred := by
  unfold offerReport
  split
  · rwa [transmitNext_react]
  · unfold discardReport
    dsimp only
    split <;> exact List.mem_append_left _ h

/-- R182: the offers that wait when an occurrence is raised wait on, with its own behind them. -/
theorem record_deferred {e : Deferred} (k : EventKind) (d : Nat) {s : State}
    (h : e ∈ s.react.deferred) : e ∈ (record k d s).react.deferred := by
  have hc : (captureFault k d (setFlag k s)).react = s.react := by
    unfold captureFault
    split <;> rfl
  refine List.mem_append_left _ ?_
  unfold reportEvent
  split
  · exact offerReport_deferred _ (by rwa [hc])
  · rwa [hc]

theorem record_offered (k : EventKind) (d : Nat) (s : State) :
    .occurrence k d ∈ (record k d s).react.deferred := List.mem_append_right _ List.mem_cons_self

theorem silenceOnMode_react (o m : LineMode) (s : State) : (silenceOnMode o m s).react = s.react := by
  unfold silenceOnMode
  split
  · rfl
  · split <;> rfl

theorem setMode_deferred {e : Deferred} (m : LineMode) (p : RunPhase) {s : State}
    (h : e ∈ s.react.deferred) : e ∈ (setMode m p s).react.deferred := by
  refine record_deferred _ _ ?_
  rw [refreshLoops_react, endDwell_react, silenceOnMode_react]
  exact h

theorem stoppingComplete_deferred {e : Deferred} {s : State} (h : e ∈ s.react.deferred) :
    e ∈ (stoppingComplete s).react.deferred := by
  unfold stoppingComplete
  dsimp only
  split
  · rw [nipOff_react]
    exact setMode_deferred _ _ h
  · exact setMode_deferred _ _ h

/-- R8: a ramp that the line unit ends is reported complete. -/
theorem ownedRampReached_deferred {s : State} (h : s.line.owner = .action) :
    .actionDone .ramp ∈ (ownedRampReached s).react.deferred := by
  rw [ownedRampReached, h]
  exact List.mem_append_right _ List.mem_cons_self

theorem replaceRamp_deferred {s : State} (h : s.line.owner = .action) :
    .actionDone .ramp ∈ (replaceRamp s).react.deferred := by
  rw [replaceRamp, h]
  exact List.mem_append_right _ List.mem_cons_self

/-! ## The step of the reference -/

theorem settledMode_own {s : State} {k : Fin 10} (h : (s.loops.loops[k]).override = none) :
    settledMode s k = ownMode k (baseMode s k) (s.loops.loops[k]).stale := by
  unfold settledMode
  rw [h]
  cases baseMode s k <;> rfl

theorem baseMode_span (s : State) (x : Fin 4) : baseMode s (spanLoop x) =
    if s.line.mode = .running ∨ s.line.mode = .stopping ∨ s.line.mode = .threading then
      (if 0 < s.line.reference then .auto else .hold)
    else .off := by
  have hk : isHeatLoop (spanLoop x) = false := by simp [isHeatLoop, spanLoop]
  unfold baseMode
  rw [hk]
  cases s.line.mode <;> simp

/-- R68, R69: a tension loop with no override holds unless the line moves and its channel is fresh. -/
theorem settledMode_span {s : State} {x : Fin 4} (h : (s.loops.loops[spanLoop x]).override = none) :
    settledMode s (spanLoop x) =
      if s.line.mode = .running ∨ s.line.mode = .stopping ∨ s.line.mode = .threading then
        (if 0 < s.line.reference ∧ (s.loops.loops[spanLoop x]).stale = false then .auto else .hold)
      else .off := by
  have hk : isHeatLoop (spanLoop x) = false := by simp [isHeatLoop, spanLoop]
  rw [settledMode_own h, baseMode_span]
  split
  · by_cases hr : 0 < s.line.reference
    · cases (s.loops.loops[spanLoop x]).stale <;> simp [ownMode, hk, hr]
    · simp [ownMode, hr]
  · rfl

theorem steppedReference_eq (l : LineUnit) (h : l.reference ≠ l.target) : steppedReference l =
    if l.reference < l.target then min (l.reference + rateOf l) l.target
    else if l.target < l.reference then max (l.reference - rateOf l) l.target
    else l.reference := by
  unfold steppedReference
  split
  · rfl
  · rw [if_pos (by omega)]

/-- R7: the state between the step of the reference and the landing. -/
def stepped (s : State) : State := refreshLoops { s with line.reference := steppedReference s.line }

theorem stepped_line (s : State) :
    (stepped s).line = { s.line with reference := steppedReference s.line } :=
  (refreshLoops_units _).2.1

theorem stepped_lineFrame (s : State) : LineFrame s (stepped s) :=
  (referenceField_lineFrame _ s).trans (refreshLoops_units _).1

theorem stepReference_still {s : State} (h : s.line.reference = s.line.target) :
    stepReference s = s := if_pos h

theorem stepReference_short {s : State} (h : s.line.reference ≠ s.line.target)
    (hs : steppedReference s.line ≠ s.line.target) : stepReference s = stepped s := by
  rw [stepReference, if_neg h]
  exact if_neg (by rw [(refreshLoops_units _).2.1]; exact hs)

theorem stepReference_lands {s : State} (h : s.line.reference ≠ s.line.target)
    (hs : steppedReference s.line = s.line.target) : stepReference s = targetReached (stepped s) := by
  rw [stepReference, if_neg h]
  exact if_pos (by rw [(refreshLoops_units _).2.1]; exact hs)

theorem ownedRampReached_lineFrame (s : State) : LineFrame s (ownedRampReached s) := by
  refine .of_units (ownedRampReached_frame s) ?_
  unfold ownedRampReached
  split <;> exact ⟨rfl, rfl, rfl, rfl, rfl, rfl, rfl, rfl⟩

theorem targetReached_lineFrame (s : State) : LineFrame s (targetReached s) := by
  have h := ownedRampReached_lineFrame s
  unfold targetReached
  dsimp only
  split
  · split
    · exact h.trans (phaseField_lineFrame _ _)
    · exact h
  · split
    · exact h.trans (stoppingComplete_lineFrame _)
    · exact h
  all_goals exact h

theorem stepReference_lineFrame (s : State) : LineFrame s (stepReference s) := by
  by_cases h : s.line.reference = s.line.target
  · rw [stepReference_still h]
    exact .refl s
  · by_cases hs : steppedReference s.line = s.line.target
    · rw [stepReference_lands h hs]
      exact (stepped_lineFrame s).trans (targetReached_lineFrame _)
    · rw [stepReference_short h hs]
      exact stepped_lineFrame s

/-- R7: a landing ends an owned ramp and, in RUNNING RAMPING, the ramp of the line. -/
theorem targetReached_moving {s : State} (h : s.line.mode ≠ .stopping ∨ s.line.reference ≠ 0) :
    targetReached s = { ownedRampReached s with
      line.phase := if s.line.mode = .running ∧ s.line.phase = .ramping then .steady else s.line.phase } := by
  have l := ownedRampReached_line s
  have hm : s.line.mode = (ownedRampReached s).line.mode := by rw [l]
  have hp : s.line.phase = (ownedRampReached s).line.phase := by rw [l]
  have hr : s.line.reference = (ownedRampReached s).line.reference := by rw [l]
  unfold targetReached
  rw [hm, hr] at h
  rw [hm, hp]
  generalize ownedRampReached s = o at *
  dsimp only
  split
  · next e =>
    split
    · next hc => rw [if_pos ⟨e, hc⟩]
    · next hc => rw [if_neg (fun hh => hc hh.2)]
  · next e =>
    rw [if_neg (h.resolve_left (not_not.mpr e)), if_neg (by rw [e]; simp)]
  all_goals
    next e => rw [if_neg (by rw [e]; simp)]

/-- R16: a landing at 0 in STOPPING ends the stop. -/
theorem targetReached_stopping {s : State} (hm : s.line.mode = .stopping) (hr : s.line.reference = 0) :
    targetReached s = stoppingComplete (ownedRampReached s) := by
  have l := ownedRampReached_line s
  have hm' : (ownedRampReached s).line.mode = .stopping := by rw [l]; exact hm
  unfold targetReached
  dsimp only
  rw [hm']
  exact if_pos (by rw [l]; exact hr)

end Sys2Proof.Machine

namespace Sys2Proof.Machine

/-- R7, R8: a landing moves neither the reference nor the target, and leaves the target to the line. -/
theorem targetReached_target (s : State) : (targetReached s).line.reference = s.line.reference ∧
    (targetReached s).line.target = s.line.target ∧ (targetReached s).line.owner = .line := by
  have l := ownedRampReached_line s
  by_cases h : s.line.mode = .stopping ∧ s.line.reference = 0
  · rw [targetReached_stopping h.1 h.2, stoppingComplete_line, l]
    exact ⟨rfl, rfl, rfl⟩
  · rw [targetReached_moving (not_and_or.mp h)]
    dsimp only
    rw [l]
    exact ⟨rfl, rfl, rfl⟩

theorem stepReference_reference (s : State) : (stepReference s).line.reference =
    if s.line.reference < s.line.target then min (s.line.reference + rateOf s.line) s.line.target
    else if s.line.target < s.line.reference then max (s.line.reference - rateOf s.line) s.line.target
    else s.line.reference := by
  by_cases h : s.line.reference = s.line.target
  · rw [stepReference_still h, if_neg (by omega), if_neg (by omega)]
  · rw [← steppedReference_eq s.line h]
    by_cases hs : steppedReference s.line = s.line.target
    · rw [stepReference_lands h hs, (targetReached_target _).1, stepped_line]
    · rw [stepReference_short h hs, stepped_line]

theorem stepReference_target (s : State) : (stepReference s).line.target = s.line.target := by
  by_cases h : s.line.reference = s.line.target
  · rw [stepReference_still h]
  · by_cases hs : steppedReference s.line = s.line.target
    · rw [stepReference_lands h hs, (targetReached_target _).2.1, stepped_line]
    · rw [stepReference_short h hs, stepped_line]

/-- The step lands exactly where the stepped reference is the target. -/
theorem stepReference_lands_iff {s : State} (h : s.line.reference ≠ s.line.target) :
    (stepReference s).line.reference = s.line.target ↔ steppedReference s.line = s.line.target := by
  rw [stepReference_reference, ← steppedReference_eq s.line h]

theorem targetReached_deferred {s : State} (h : s.line.owner = .action) :
    .actionDone .ramp ∈ (targetReached s).react.deferred := by
  have hd := ownedRampReached_deferred h
  by_cases hc : s.line.mode = .stopping ∧ s.line.reference = 0
  · rw [targetReached_stopping hc.1 hc.2]
    exact stoppingComplete_deferred hd
  · rw [targetReached_moving (not_and_or.mp hc)]
    exact hd

/-- R16: what a stop that a landing ends leaves of the line. -/
theorem targetReached_stopped {s : State} (hm : s.line.mode = .stopping) (hr : s.line.reference = 0) :
    (targetReached s).line.mode = .ready ∧ (targetReached s).line.phase = .noPhase ∧
      (targetReached s).line.feed = false ∧
      (s.line.liftOnStop = 1 → s.line.nip.output = true →
        (targetReached s).line.nip = if s.pins.nipFb = true then .opening else .opened) ∧
      (s.line.liftOnStop ≠ 1 ∨ s.line.nip.output = false →
        (targetReached s).line.nip = s.line.nip) ∧
      hasKind (targetReached s).events.set .modeChange = true := by
  have l := ownedRampReached_line s
  have hp := (ownedRampReached_frame s).pins
  have hk := stoppingComplete_modeChange (ownedRampReached s)
  rw [targetReached_stopping hm hr]
  refine ⟨?_, ?_, ?_, ?_, ?_, hk⟩ <;> rw [stoppingComplete_line, l, hp]
  · intro hl hn
    dsimp only
    rw [if_pos hl, liftedNip, if_pos hn]
  · intro hc
    dsimp only
    rcases hc with hl | hn
    · rw [if_neg hl]
    · simp [liftedNip, hn]

/-- R69: the mode of a tension loop with no override. -/
def spanMode (m : LineMode) (reference : Int) (stale : Bool) : LoopMode :=
  if m = .running ∨ m = .stopping ∨ m = .threading then
    (if 0 < reference ∧ stale = false then .auto else .hold)
  else .off

theorem stoppingComplete_loops (s : State) : (stoppingComplete s).loops =
    (setMode .ready .noPhase { s with line.feed := false }).loops := by
  unfold stoppingComplete
  dsimp only
  split
  · exact (nipOff_spec (setMode .ready .noPhase { s with line.feed := false })).2.2.2.1
  · rfl

/-- R69: an ended stop leaves the tension loops OFF. -/
theorem stoppingComplete_span (s : State) (x : Fin 4) :
    ((stoppingComplete s).loops.loops[spanLoop x]).mode = .off := by
  rw [stoppingComplete_loops, (setMode_loop ..).1]
  exact settledMode_off (by rw [baseMode_span]; simp)

theorem targetReached_span {s : State} {x : Fin 4} {stale : Bool}
    (h : (s.loops.loops[spanLoop x]).mode = spanMode s.line.mode s.line.reference stale) :
    ((targetReached s).loops.loops[spanLoop x]).mode =
      spanMode (targetReached s).line.mode (targetReached s).line.reference stale := by
  by_cases hc : s.line.mode = .stopping ∧ s.line.reference = 0
  · rw [targetReached_stopping hc.1 hc.2, stoppingComplete_line, stoppingComplete_span]
    exact (if_neg (by simp)).symm
  · rw [targetReached_moving (not_and_or.mp hc)]
    dsimp only
    rw [ownedRampReached_line, ownedRampReached_loops]
    exact h

theorem stepped_span {s : State} {x : Fin 4} (h : (s.loops.loops[spanLoop x]).override = none) :
    ((stepped s).loops.loops[spanLoop x]).mode =
      spanMode (stepped s).line.mode (stepped s).line.reference (s.loops.loops[spanLoop x]).stale := by
  rw [stepped_line]
  exact (refreshLoops_mode _ _).1.trans
    (settledMode_span (s := { s with line.reference := steppedReference s.line }) h)

/-- R69: the tension loops follow the mode and the reference as the step leaves them. -/
theorem stepReference_span {s : State} (hne : s.line.reference ≠ s.line.target) {x : Fin 4}
    (h : (s.loops.loops[spanLoop x]).override = none) :
    ((stepReference s).loops.loops[spanLoop x]).mode =
      spanMode (stepReference s).line.mode (stepReference s).line.reference
        (s.loops.loops[spanLoop x]).stale := by
  by_cases hs : steppedReference s.line = s.line.target
  · rw [stepReference_lands hne hs]
    exact targetReached_span (stepped_span h)
  · rw [stepReference_short hne hs]
    exact stepped_span h

/-- R7, R8, R16: what a landing does, by the mode that it finds. -/
theorem stepReference_landed {s : State} (hne : s.line.reference ≠ s.line.target)
    (hs : steppedReference s.line = s.line.target) :
    (stepReference s).line.owner = .line ∧
      (s.line.owner = .action → .actionDone .ramp ∈ (stepReference s).react.deferred) ∧
      (s.line.mode = .running → s.line.phase = .ramping →
        (stepReference s).line.mode = .running ∧ (stepReference s).line.phase = .steady) ∧
      (s.line.mode = .stopping → s.line.target = 0 →
        (stepReference s).line.mode = .ready ∧ (stepReference s).line.phase = .noPhase ∧
        (stepReference s).line.feed = false ∧
        (s.line.liftOnStop = 1 → s.line.nip.output = true →
          (stepReference s).line.nip = if s.pins.nipFb = true then .opening else .opened) ∧
        (s.line.liftOnStop ≠ 1 ∨ s.line.nip.output = false →
          (stepReference s).line.nip = s.line.nip) ∧
        hasKind (stepReference s).events.set .modeChange = true) := by
  have l := stepped_line s
  rw [stepReference_lands hne hs]
  refine ⟨(targetReached_target _).2.2, fun ho => ?_, fun hm hp => ?_, fun hm ht => ?_⟩
  · exact targetReached_deferred (by rw [l]; exact ho)
  · rw [targetReached_moving (.inl (by rw [l, hm]; simp))]
    dsimp only
    rw [ownedRampReached_line, l]
    exact ⟨hm, if_pos ⟨hm, hp⟩⟩
  · have h := targetReached_stopped (s := stepped s) (by rw [l]; exact hm)
      (by rw [l]; exact hs.trans ht)
    rw [l, (stepped_lineFrame s).pins] at h
    exact h

/-! ## Encoder, speed period and dwell -/

theorem movedCount_fits {count delta : Int} (h : fits64 (count + delta) = true) :
    movedCount count delta = count + delta := if_pos h

theorem speedOf_fits {delta countsPerMm : Int}
    (h : fits32 (Int.fdiv (delta * 100) countsPerMm) = true) :
    speedOf delta countsPerMm = Int.fdiv (delta * 100) countsPerMm := if_pos h

theorem measureSpeed_fits {s : State}
    (h : fits32 (Int.fdiv ((s.line.count - s.line.sample) * 100) s.line.countsPerMm) = true) :
    measureSpeed s = { s with
      line.speed := Int.fdiv ((s.line.count - s.line.sample) * 100) s.line.countsPerMm
      line.sample := s.line.count } := by
  rw [measureSpeed, speedOf_fits h]

theorem exec_positionChange {s : State} (hr : s.runs = true) (delta : Int) :
    exec (.positionChange delta) s =
      .next (publishPosition { s with line.count := movedCount s.line.count delta }) :=
  congrArg Host.Outcome.next (whenRuns_running hr _)

theorem publishPosition_same {s : State} (h : derivedPosition s.line = s.line.position) :
    publishPosition s = s := if_pos h

theorem publishPosition_moved {s : State} (h : derivedPosition s.line ≠ s.line.position) :
    publishPosition s =
      findLots (trackBands (commit s { s with line.position := derivedPosition s.line })) := if_neg h

theorem exec_speedPeriodExpiry {s : State} (hr : s.runs = true) : exec .speedPeriodExpiry s =
    .next (commit (commit s (measureSpeed s)) (stepReference (commit s (measureSpeed s)))) :=
  congrArg Host.Outcome.next (whenRuns_running hr _)

theorem exec_warmUpDwellExpiry {s : State} (hr : s.runs = true) (hm : s.line.mode = .warming)
    (hd : s.line.dwell ≠ none) :
    exec .warmUpDwellExpiry s = .next (commit s (setMode .ready .noPhase s)) := by
  refine congrArg Host.Outcome.next ((whenRuns_running hr _).trans ?_)
  unfold dwellExpired
  split
  · next e => exact absurd e hd
  · exact if_pos hm

/-- Settles O3: the count and the position, the step of the reference with its landings, and the dwell. -/
theorem encoderSpeedAndDwell : Obligations.EncoderSpeedAndDwell := by
  unfold Obligations.EncoderSpeedAndDwell
  refine ⟨fun s hr => ⟨fun forward hf => ?_, fun delta hf => ⟨fun he => ?_, fun hne => ?_⟩⟩,
    fun s hr hf => ?_, fun s hr hm hd => ?_⟩
  · refine congrArg Host.Outcome.next ((whenRuns_running hr _).trans ?_)
    rw [movedCount_fits hf]
  · rw [exec_positionChange hr, movedCount_fits hf]
    exact congrArg Host.Outcome.next (publishPosition_same he)
  · rw [exec_positionChange hr, movedCount_fits hf]
    exact congrArg Host.Outcome.next
      (publishPosition_moved (s := { s with line.count := s.line.count + delta }) hne)
  · refine ⟨commit s (measureSpeed s), _, exec_speedPeriodExpiry hr, by rw [measureSpeed_fits hf], ?_⟩
    generalize commit s (measureSpeed s) = u
    refine ⟨stepReference_reference u, stepReference_target u, stepReference_still,
      fun hne => ⟨fun hs => ?_, fun hs => ?_, fun x hx => stepReference_span hne hx⟩,
      stepReference_lineFrame u⟩
    · rw [ne_eq, stepReference_lands_iff hne] at hs
      rw [stepReference_short hne hs, stepped_line]
    · exact stepReference_landed hne ((stepReference_lands_iff hne).mp hs)
  · obtain ⟨hf, l, hk⟩ := setMode_spec .ready .noPhase s
    refine ⟨setMode .ready .noPhase s, exec_warmUpDwellExpiry hr hm hd, l, hk, fun k hk ho => ?_, hf⟩
    exact (setMode_loop .ready .noPhase s k).1.trans
      (settledMode_heat ((isHeatLoop_iff k).mpr hk) ⟨by simp, by simp⟩ ho)

end Sys2Proof.Machine

namespace Sys2Proof.Machine

/-! ## The reaction actions -/

/-- R171: a SET writes a SETTING point as its owner takes the write. -/
theorem startAction_set {x : Nat} {p : Point} (h : Point.ofNumber x = some p) (hp : p.cls = .setting)
    (w : Fin 16) (v : Int) (s : State) : startAction w (.set x v) s = (settingWrite p v s).state := by
  show writeAsReaction x v s = _
  rw [writeAsReaction, h]
  dsimp only
  rw [hp]

theorem startAction_copy {x y : Nat} {p q : Point} (h : Point.ofNumber x = some p)
    (hp : p.cls = .setting) (hq : Point.ofNumber y = some q) (w : Fin 16) (s : State) :
    startAction w (.copy x y) s = (settingWrite p (readPoint s q) s).state := by
  show writeAsReaction x (copySource s y) s = _
  rw [copySource, hq]
  exact startAction_set h hp w _ s

/-- R172: a RAMP just started waits exactly if the target is not yet reached. -/
theorem startRamp_owner_iff {s : State} (h : rampTakesEffect s = true) (t r : Int) :
    (startRamp t r s).line.owner = .action ↔ (startRamp t r s).line.target ≠ s.line.reference := by
  rw [startRamp_line h]
  dsimp only
  split <;> simp_all

theorem startRamp_phase {s : State} (h : rampTakesEffect s = true) (t r : Int) :
    (startRamp t r s).line.phase =
      if s.line.mode = .running then
        (if (startRamp t r s).line.target = s.line.reference then .steady else .ramping)
      else s.line.phase := by
  rw [startRamp_line h]

/-- R20: where the nip stands once NIP is off, by the feedback found. -/
theorem liftedNip_eq {b feedback : Bool} {n : NipState}
    (h : n = (if b then .opening else .opened) ∨ (n.output = true ∧ feedback = b)) :
    liftedNip feedback n = if b then .opening else .opened := by
  rcases h with rfl | ⟨h, rfl⟩
  · cases b <;> rfl
  · rw [liftedNip, if_pos h]

/-- R173: a LIFT in ENGAGING ends the engage. -/
theorem liftNip_engaging {s : State} (hm : s.line.mode = .running) (hp : s.line.phase = .engaging) :
    (liftNip s).line = { s.line with
      mode := .ready, phase := .noPhase, dwell := none, feed := false
      target := clampTo 0 s.line.vMax 0, rateSource := .rampRate, owner := .line
      nip := liftedNip s.pins.nipFb s.line.nip } := by
  have l := nipOff_line s
  rw [liftNip]
  dsimp only
  rw [if_pos (by rw [l]; exact ⟨hm, hp⟩), endEngage_line, l]

theorem liftNip_else {s : State} (h : ¬(s.line.mode = .running ∧ s.line.phase = .engaging)) :
    liftNip s = nipOff s := by
  rw [liftNip]
  dsimp only
  exact if_neg (by rw [nipOff_line]; exact h)

theorem liftNip_nip (s : State) : (liftNip s).line.nip = liftedNip s.pins.nipFb s.line.nip := by
  by_cases h : s.line.mode = .running ∧ s.line.phase = .engaging
  · rw [liftNip_engaging h.1 h.2]
  · rw [liftNip_else h, nipOff_line]

theorem liftNip_lineFrame (s : State) : LineFrame s (liftNip s) := by
  unfold liftNip
  dsimp only
  split
  · exact (nipOff_spec s).1.trans (endEngage_lineFrame _)
  · exact (nipOff_spec s).1

/-- R16, R174: the line after a STOP action, which ends the stop where the reference is 0. -/
theorem stopLine_taken {s : State} (h : s.line.mode = .running ∨ s.line.mode = .threading) :
    stopLine s = endStop (beginStop s) := if_pos ((canStop_iff s).mpr h)

theorem endStop_deferred {e : Deferred} {s : State} (h : e ∈ s.react.deferred) :
    e ∈ (endStop s).react.deferred := by
  unfold endStop
  split
  · exact stoppingComplete_deferred h
  · exact h

theorem endStop_modeChange {s : State} (h : hasKind s.events.set .modeChange = true) :
    hasKind (endStop s).events.set .modeChange = true := by
  unfold endStop
  split
  · exact stoppingComplete_modeChange s
  · exact h

/-- R8: a RAMP that the stop replaces is reported complete. -/
theorem beginStop_deferred {s : State} (h : s.line.owner = .action) :
    .actionDone .ramp ∈ (beginStop s).react.deferred :=
  replaceRamp_deferred (by rw [(setMode_spec ..).2.1]; exact h)

/-! ## SAFE -/

/-- R17: what SAFE makes of the line before the mode changes. -/
def halted (s : State) : State := { replaceRamp s with
  line.target := 0, line.reference := 0, line.feed := false, line.beacon := true }

theorem safeLine_lineFrame (s : State) : LineFrame s (safeLine s) := by
  have r := replaceRamp_lineFrame s
  have g : LineFrame (halted s) (safeLine s) := (setMode_spec ..).1.trans (nipOff_spec _).1
  exact .of_units (safeLine_frame s) ⟨g.meas.trans r.meas, g.bands.trans r.bands,
    g.engine.trans r.engine, g.outputs.trans r.outputs, g.watches.trans r.watches,
    g.levels.trans r.levels, g.executor.trans r.executor, g.user.trans r.user⟩

theorem safeLine_units (s : State) :
    (safeLine s).loops = (setMode .safe .noPhase (halted s)).loops ∧
      (safeLine s).link = (setMode .safe .noPhase (halted s)).link ∧
      (safeLine s).events = (setMode .safe .noPhase (halted s)).events ∧
      (safeLine s).react = (setMode .safe .noPhase (halted s)).react := by
  obtain ⟨-, -, he, hl, hk, -⟩ := nipOff_spec (setMode .safe .noPhase (halted s))
  exact ⟨hl, hk, he, nipOff_react _⟩

theorem halted_mode (s : State) : (halted s).line.mode = s.line.mode := by
  show (replaceRamp s).line.mode = _
  rw [replaceRamp_line]

theorem halted_link (s : State) : (halted s).link = s.link := by
  show (replaceRamp s).link = _
  unfold replaceRamp
  cases s.line.owner <;> rfl

/-- R203: an entry into SAFE from OFF arms and starts the silence timing; from another mode it goes on. -/
theorem safeLine_silence (s : State) :
    (s.line.mode = .off ∧ s.link.linkSilence ≠ 0 →
      (safeLine s).link.silenceArmed = true ∧ (safeLine s).link.silence = some s.link.linkSilence) ∧
    (s.line.mode ≠ .off ∨ s.link.linkSilence = 0 →
      (safeLine s).link.silenceArmed = s.link.silenceArmed ∧
      (safeLine s).link.silence = s.link.silence) := by
  obtain ⟨h1, h2⟩ := setMode_silence .safe .noPhase (halted s)
  rw [(safeLine_units s).2.1, h1, h2, halted_mode, silenceOnMode, if_neg (by decide), halted_link]
  refine ⟨fun h => ?_, fun h => ?_⟩
  · rw [if_pos h]
    exact ⟨rfl, rfl⟩
  · rw [if_neg (by rw [not_and_or, not_not]; exact h), halted_link]
    exact ⟨rfl, rfl⟩

theorem endLevelWork_level (s : State) (l : Fin 16) : (endLevelWork s).react.levels[l] =
    if l.val = 0 then s.react.levels[l]
    else { s.react.levels[l] with pending := false, cause := none, runPos := none, runCause := none } := by
  simp [endLevelWork]

theorem startAction_safe {s : State} (h : s.line.mode ≠ .safe) (w : Fin 16) :
    startAction w .safe s = endLevelWork (safeLine s) := if_neg h

/-! ## The nine actions -/

/-- Settles O40: each action as the operation of the line unit that it starts. -/
theorem actionsTaken : Obligations.ActionsTaken := by
  unfold Obligations.ActionsTaken
  refine fun w s => ⟨fun x v p hx hp => ?_, fun t r hv => ⟨fun h => ?_, fun h1 h2 => ?_⟩, ?_,
    fun h1 h2 => ?_, fun hm hv => ?_, ⟨?_, fun k hk => ?_⟩, rfl, rfl, fun hm => if_pos hm,
    fun hm => ?_⟩
  · exact ⟨startAction_set hx hp w v s, fun y q hy => startAction_copy hx hp hy w s⟩
  · have he := (rampTakesEffect_iff s).mpr h
    have ho := startRamp_owner_iff he t r
    have hw : actionWaits (.ramp t r) (startRamp t r s) = true ↔
        (startRamp t r s).line.owner = .action := by simp [actionWaits]
    have l := startRamp_line he t r
    refine ⟨?_, congrArg (·.rateSource) l, ho, hw.trans ho, congrArg (·.reference) l,
      startRamp_phase he t r, startRamp_lineFrame t r s⟩
    exact (congrArg (·.target) l).trans (clampTo_eq_max_min hv t)
  · refine startRamp_else (Bool.eq_false_iff.mpr fun hc => ?_) t r
    rcases (rampTakesEffect_iff s).mp hc with h | ⟨hm, hp⟩
    · exact h1 h
    · rcases h2 with h | h
      · exact h hm
      · rw [h] at hp
        exact hp.elim nofun nofun
  · have hn := liftNip_nip s
    refine ⟨?_, by simp [actionWaits, startAction], fun h => ?_, fun h => ?_, fun hm hp => ?_,
      fun h => ?_, liftNip_lineFrame s⟩
    · exact (congrArg NipState.output hn).trans (liftedNip_output ..)
    · exact hn.trans (liftedNip_eq (b := false) h)
    · exact hn.trans (liftedNip_eq (b := true) h)
    · have l := liftNip_engaging hm hp
      exact ⟨congrArg (·.mode) l, congrArg (·.feed) l⟩
    · show (liftNip s).line.mode = _
      rw [liftNip_else (not_and_or.mpr h), nipOff_line]
  · exact if_neg (fun hc => ((canStop_iff s).mp hc).elim h1 h2)
  · show (_ → (stopLine s).line = _) ∧ (_ → (stopLine s).line = _) ∧
      (_ → _ ∈ (stopLine s).react.deferred) ∧ hasKind (stopLine s).events.set _ = true ∧ _ ∧
      LineFrame s (stopLine s)
    rw [stopLine_taken hm]
    have l := beginStop_line_zero hv
    have f := beginStop_lineFrame s
    refine ⟨fun h => ?_, fun h => ?_, fun h => endStop_deferred (beginStop_deferred h),
      endStop_modeChange (beginStop_modeChange s), rfl, f.trans (endStop_lineFrame _)⟩
    · rw [endStop_standing (.inr (by rw [l]; exact h)), l]
    · rw [endStop_ended (by rw [l]) (by rw [l]; exact h), stoppingComplete_line, l, f.pins]
      dsimp only
      congr 1
      rw [liftedNip]
      by_cases hl : s.line.liftOnStop = 1 <;> simp [hl]
  · show (setHeatHold true s).line.heatHold = true
    rw [setHeatHold_line]
  · obtain ⟨-, -, -, hp⟩ := (setHeatHold_spec true s).2.2.2.2.2 k
    refine (hp ((isHeatLoop_iff k).mpr hk)).trans ?_
    rw [setpointOf_heat hk]
    cases s.profiles.heat <;> rfl
  · rw [startAction_safe hm]
    have l := safeLine_line s
    have f := safeLine_lineFrame s
    obtain ⟨el, -, ee, er⟩ := safeLine_units s
    obtain ⟨hs1, hs2⟩ := safeLine_silence s
    obtain ⟨hk, hz⟩ := setMode_off (m := .safe) (.inr rfl) .noPhase (halted s)
    rw [← el] at hk hz
    have line : (endLevelWork (safeLine s)).line = (safeLine s).line := rfl
    refine ⟨?_, ?_, ?_, ?_, ?_, ?_, ?_, ?_, ?_, ?_, ?_, hs1, hs2, hk, fun z => ?_, fun i hi => ?_, ?_,
      f.lock, f.bands, f.meas, f.profiles⟩
    rotate_left 9
    · show hasKind (safeLine s).events.set _ = true
      rw [ee]
      exact (setMode_spec ..).2.2
    · show _ ∈ (safeLine s).react.deferred
      rw [er]
      exact record_offered ..
    · exact ⟨(hz z).1, heaterPin_of_off (hz z).2, pendingDuty_heldOff (heldOff_of_off (hk (zoneLoop z)))⟩
    · rw [endLevelWork_level, if_neg hi, f.levels]
    · rw [endLevelWork_level, if_pos (show (0 : Fin 16).val = 0 from rfl), f.levels]
    all_goals rw [line, l]
    exact liftedNip_output ..

end Sys2Proof.Machine

namespace Sys2Proof.Machine

/-! ## What raising an occurrence makes of the event unit -/

theorem transmitNext_fault (s : State) : (transmitNext s).events.fault = s.events.fault := by
  unfold transmitNext payNotice
  split
  · rfl
  · split
    · rfl
    · split
      · rfl
      · split <;> rfl

theorem offerReport_fault (r : Report) (s : State) : (offerReport r s).events.fault = s.events.fault := by
  unfold offerReport
  split
  · rw [transmitNext_fault]
  · unfold discardReport
    dsimp only
    split <;> rfl

/-- R182 step 2, R183: a fault is captured; an occurrence that is none leaves the record as it was. -/
theorem record_fault (k : EventKind) (d : Nat) (s : State) : (record k d s).events.fault =
    if isFault k d then s.events.fault.capture k d s.line.mode s.line.position else s.events.fault := by
  have hc : (captureFault k d (setFlag k s)).events.fault =
      if isFault k d then s.events.fault.capture k d s.line.mode s.line.position
      else s.events.fault := by
    unfold captureFault
    split <;> rfl
  show (reportEvent k d (captureFault k d (setFlag k s))).events.fault = _
  unfold reportEvent
  split
  · rw [offerReport_fault, hc]
  · exact hc

theorem hasKind_or {set : BitVec 23} {k : EventKind} (h : hasKind set k = true) (b : BitVec 23) :
    hasKind (set ||| b) k = true := by
  simp only [hasKind, BitVec.getLsbD_or] at *
  rw [h, Bool.true_or]

/-- R182 step 1: a flag that is set stays set. -/
theorem record_flags {j : EventKind} (k : EventKind) (d : Nat) {s : State}
    (h : hasKind s.events.set j = true) : hasKind (record k d s).events.set j = true := by
  have hc : hasKind (captureFault k d (setFlag k s)).events.set j = true := by
    unfold captureFault
    split <;> exact hasKind_or h _
  show hasKind (reportEvent k d (captureFault k d (setFlag k s))).events.set j = true
  unfold reportEvent
  split
  · exact (offerReport_units ..).2.2.2.2.2.2.2.2.2.2.2 j hc
  · exact hc

/-- R188: with room in the report queue an occurrence leaves its own offer alone. -/
theorem record_offers {s : State} (h : s.events.reports.length < Config.reportCapacity) (k : EventKind)
    (d : Nat) : (record k d s).react.deferred = s.react.deferred ++ [.occurrence k d] := by
  have hc : (captureFault k d (setFlag k s)).react = s.react ∧
      (captureFault k d (setFlag k s)).events.reports = s.events.reports := by
    unfold captureFault
    split <;> exact ⟨rfl, rfl⟩
  have hr : (reportEvent k d (captureFault k d (setFlag k s))).react = s.react := by
    unfold reportEvent
    split
    · rw [offerReport, if_pos (by rw [hc.2]; exact h), transmitNext_react, hc.1]
    · exact hc.1
  show (reportEvent k d (captureFault k d (setFlag k s))).react.deferred ++ _ = _
  rw [hr]

/-! ## What a reaction can do to the event unit -/

theorem silenceOnMode_events (o m : LineMode) (s : State) : (silenceOnMode o m s).events = s.events := by
  unfold silenceOnMode
  split
  · rfl
  · split <;> rfl

theorem refreshHeatSetpoints_events (s : State) : (refreshHeatSetpoints s).events = s.events := by
  unfold refreshHeatSetpoints
  dsimp only
  split
  · exact (checkDwell_units _).2.2.2.1
  · rfl

theorem raiseLimits_events (s : State) : (raiseLimits s).events = s.events := by
  unfold raiseLimits
  split <;> rfl

theorem storePlain_events (p : Point) (v : Int) (s : State) : (storePlain p v s).events = s.events := by
  cases p
  case countsPerMm =>
    simp only [storePlain]
    split <;> rfl
  case overheatMargin => exact raiseLimits_events _
  case standbyTemp =>
    simp only [storePlain]
    split
    · exact refreshHeatSetpoints_events _
    · rfl
  all_goals rfl

/-- R49: the write of a point raises nothing. -/
theorem settingWrite_events (p : Point) (v : Int) (s : State) :
    (settingWrite p v s).state.events = s.events := by
  unfold settingWrite
  split
  · unfold writeLinkSilence silenceOnWrite
    dsimp only
    split
    · rfl
    · split <;> rfl
  · rfl
  · rfl
  · rfl
  · unfold writeLoopOutput
    dsimp only
    split <;> rfl
  · unfold writeLoopMode
    dsimp only
    split
    · exact (refreshLoop_units ..).2.2.2
    · split
      · exact (refreshLoop_units ..).2.2.2
      · rfl
  · unfold writeOutSource
    split <;> rfl
  · exact storePlain_events ..

theorem startRamp_events (t r : Int) (s : State) : (startRamp t r s).events = s.events := by
  unfold startRamp rampPhase
  dsimp only
  split
  · split <;> rfl
  · rfl

theorem replaceRamp_events (s : State) : (replaceRamp s).events = s.events := by
  unfold replaceRamp
  split <;> rfl

section
variable {Q : EventUnit → Prop}

theorem setMode_events_kept (hr : ∀ k d s, Q s.events → Q (record k d s).events) (m : LineMode)
    (p : RunPhase) {s : State} (h : Q s.events) : Q (setMode m p s).events := by
  unfold setMode
  refine hr _ _ _ ?_
  rw [(refreshLoops_units _).2.2.2, endDwell_events, silenceOnMode_events]
  exact h

theorem endStop_events_kept (hr : ∀ k d s, Q s.events → Q (record k d s).events) {s : State}
    (h : Q s.events) : Q (endStop s).events := by
  have hm : Q (setMode .ready .noPhase { s with line.feed := false }).events :=
    setMode_events_kept hr _ _ h
  unfold endStop stoppingComplete
  dsimp only
  split
  · split
    · rw [(nipOff_spec _).2.2.1]
      exact hm
    · exact hm
  · exact h

/-- A property of the event unit that raising an occurrence and offering a report keep is kept by every
hand-over and reaction. -/
theorem kept_of_events (hr : ∀ k d s, Q s.events → Q (record k d s).events)
    (ho : ∀ r s, Q s.events → Q (offerReport r s).events) : Kept (fun s => Q s.events) where
  output _ _ h := h
  watch _ _ _ h := h
  levels _ _ h := h
  deferred _ _ h := h
  free _ h := h
  hold _ _ h _ := h
  raise k d s h := hr k d s h
  write p v s h _ := by rwa [settingWrite_events]
  ramp t r s h := by rwa [startRamp_events]
  abandon s h := by unfold abandonRamp; split <;> exact h
  lift s h := by
    have h1 : Q (nipOff s).events := by rwa [(nipOff_spec s).2.2.1]
    unfold liftNip
    dsimp only
    split
    · refine setMode_events_kept hr _ _ ?_
      rw [(setLineTarget_spec ..).2.2.1]
      exact h1
    · exact h1
  stop s h := by
    unfold stopLine
    split
    · refine endStop_events_kept hr ?_
      rw [beginStop, (setLineTarget_spec ..).2.2.1]
      exact setMode_events_kept hr _ _ h
    · exact h
  heatHold s h := by rwa [(setHeatHold_spec true s).2.2.1]
  beacon _ h := h
  report _ s h := ho _ s h
  safe s h _ := by
    rw [(safeLine_units s).2.2.1]
    refine setMode_events_kept hr _ _ ?_
    show Q (replaceRamp s).events
    rwa [replaceRamp_events]

end

/-- R23, R189: ESTOP has been raised, and is the first fault of the record. -/
def EstopFirst (e : EventUnit) : Prop :=
  hasKind e.set .estop = true ∧ e.fault.isEmpty = false ∧ e.fault.first = some .estop

theorem capture_first {r : FaultRecord} (h : r.isEmpty = false) (k : EventKind) (d : Nat)
    (m : LineMode) (p : Int) : (r.capture k d m p).isEmpty = false ∧ (r.capture k d m p).first = r.first := by
  unfold FaultRecord.capture
  rw [h]
  refine ⟨?_, rfl⟩
  simp only [FaultRecord.isEmpty, beq_eq_false_iff_ne, ne_eq] at *
  intro hc
  exact h (BitVec.or_eq_zero_iff.mp hc).1

/-- R189: no reaction replaces the first fault. -/
theorem estopFirst_kept : Kept (fun s => EstopFirst s.events) := by
  refine kept_of_events (fun k d s h => ?_) (fun r s h => ?_)
  · obtain ⟨h1, h2, h3⟩ := h
    obtain ⟨c1, c2⟩ := capture_first h2 k d s.line.mode s.line.position
    refine ⟨record_flags k d h1, ?_⟩
    rw [record_fault]
    split
    · exact ⟨c1, c2.trans h3⟩
    · exact ⟨h2, h3⟩
  · obtain ⟨h1, h2⟩ := h
    refine ⟨(offerReport_units r s).2.2.2.2.2.2.2.2.2.2.2 _ h1, ?_⟩
    rwa [offerReport_fault]

end Sys2Proof.Machine

namespace Sys2Proof.Machine

/-! ## The offer of an ESTOP brings the line to SAFE -/

theorem handToWatch_react (old new : State) (a : Option (Fin 16)) (s : State) (w : Fin 16) :
    (handToWatch old new a s w).react.levels = s.react.levels ∧
      s.react.deferred <+: (handToWatch old new a s w).react.deferred := by
  unfold handToWatch judgeWatch
  split
  · exact ⟨rfl, List.prefix_rfl⟩
  · split
    · dsimp only
      split
      · exact ⟨rfl, List.prefix_append ..⟩
      · exact ⟨rfl, List.prefix_rfl⟩
    · exact ⟨rfl, List.prefix_rfl⟩

/-- R56: a hand-over leaves the levels, and puts the trips behind the offers that wait. -/
theorem publish_react (old new : State) : (publish old new).react.levels = new.react.levels ∧
    new.react.deferred <+: (publish old new).react.deferred := by
  unfold publish publishArrival
  generalize List.finRange 16 = l
  refine foldl_kept
    (P := fun t => t.react.levels = new.react.levels ∧ new.react.deferred <+: t.react.deferred)
    (handToWatch old (settleOutputs old none 5 new) none) (fun t w h => ?_) l _ ?_
  · obtain ⟨h1, h2⟩ := handToWatch_react old (settleOutputs old none 5 new) none t w
    exact ⟨h1.trans h.1, h.2.trans h2⟩
  · rw [settleOutputs_react]
    exact ⟨rfl, List.prefix_rfl⟩

/-- R163: level 0 has its fixed actions, and no run under way. -/
def LevelZeroIdle (s : State) : Prop :=
  s.react.levels[(0 : Fin 16)] = Level.ofDef (LevelDef.factory 0) ∧ s.react.executor = none

theorem safeAction_inSafe (s : State) : InSafe (safeAction s) := by
  unfold safeAction
  split
  · assumption
  · exact congrArg (·.mode) (safeLine_line s)

/-- R167: a run of level 0 that begins brings the line to SAFE. -/
theorem workRun_inSafe {s : State} {w : Fin 16} {p n : Nat} (hp : (s.react.levels[w]).runPos = some p)
    (ha : (s.react.levels[w]).defn.actions[p - 1]? = some .safe) : InSafe (workRun (n + 1) w s) := by
  have h1 : InSafe (publish s (startAction w .safe s)) :=
    inSafe_kept.publish _ _ (safeAction_inSafe s)
  unfold workRun
  rw [hp]
  dsimp only
  rw [ha]
  dsimp only
  split
  · exact h1
  · exact inSafe_kept.workRun _ _ _ (inSafe_kept.modifyLevel _ _ _ h1)

theorem award_level {s : State} {w : Fin 16} (h : (s.react.levels[w]).runPos = none) :
    (award w s).react.levels[w] = { s.react.levels[w] with
      pending := false, runCause := (s.react.levels[w]).cause, runPos := some 1 } := by
  have h' : (s.react.levels[w.val]).runPos = none := h
  simp [award, modifyLevel, upd, h']

theorem auctionWinner_zero {s : State} (h : levelState s 0 = .waiting) : auctionWinner s = some 0 := by
  have hc : isCandidate s 0 = true := by simp [isCandidate, h]
  rw [auctionWinner, List.finRange_succ, List.find?_cons, hc]

/-- R165, R167: an ESTOP offered to an idle level 0 is taken with the SAFE of its run. -/
theorem takeOffer_estop_inSafe {s : State} {d : Nat} (h : LevelZeroIdle s) :
    InSafe (takeOffer (.occurrence .estop d) s) := by
  obtain ⟨hl, he⟩ := h
  show InSafe (auction (setPending (triggeredByEvent s .estop) (.event .estop d) s))
  generalize hu : setPending (triggeredByEvent s .estop) (.event .estop d) s = u
  have hx : u.react.levels[(0 : Fin 16)] = { Level.ofDef (LevelDef.factory 0) with
      pending := true, cause := some (.event .estop d) } := by
    rw [← hu, ← hl]
    simp [setPending, triggeredByEvent]
  have he' : u.react.executor = none := by
    rw [← hu]
    exact he
  have hw : levelState u 0 = .waiting := by
    rw [levelState, hx, he']
    rfl
  have hz := award_level (s := u) (w := 0) (by rw [hx]; rfl)
  rw [hx] at hz
  show InSafe (holdAuctions (39 + 1) u)
  rw [holdAuctions, auctionWinner_zero hw]
  dsimp only
  rw [outranksHolder, he', if_pos rfl, vacate, he']
  refine inSafe_kept.holdAuctions _ _ (workRun_inSafe (n := 4) (p := 1) ?_ ?_)
  · rw [hz]
  · rw [hz]
    rfl

theorem settle_inSafe {s : State} {d : Nat} (h : LevelZeroIdle s)
    (hd : [.occurrence .estop d] <+: s.react.deferred) : InSafe (settle s) := by
  obtain ⟨rest, hrest⟩ := hd
  have h1 : InSafe (takeOffers Config.offersAtOnce s) := by
    show InSafe (takeOffers (63 + 1) s)
    rw [takeOffers, ← hrest]
    exact inSafe_kept.takeOffers _ _ (takeOffer_estop_inSafe h)
  unfold settle
  dsimp only
  split
  · exact h1
  · exact inSafe_kept.takeCascade _ _ _ h1

/-- R23, R165: an ESTOP that an idle level 0 finds, with no report waiting, leads to SAFE and is the first
fault. -/
theorem estopPressed_first {s : State} (h : LevelZeroIdle s) (hd : s.react.deferred = [])
    (hr : s.events.reports = []) (hf : s.events.fault.isEmpty = true) :
    (estopPressed s).line.mode = .safe ∧ EstopFirst (estopPressed s).events ∧
      (estopPressed s).pins = { s.pins with estop := true } := by
  unfold estopPressed
  have hp : (record .estop 0 (enforceHold { s with pins.estop := true })).pins =
      { s.pins with estop := true } := (record_frame ..).pins
  have hle := (record_units .estop 0 (enforceHold { s with pins.estop := true }))
  obtain ⟨-, -, -, -, -, -, -, hlev, hexe, -, -, hkind⟩ := hle
  have hdef := record_offers (s := enforceHold { s with pins.estop := true })
    (by show s.events.reports.length < _; rw [hr]; decide) .estop 0
  have hfault := record_fault .estop 0 (enforceHold { s with pins.estop := true })
  generalize record .estop 0 (enforceHold { s with pins.estop := true }) = u at *
  have hfirst : EstopFirst u.events := by
    refine ⟨hkind, ?_⟩
    rw [hfault, if_pos (show isFault .estop 0 = true from rfl)]
    show (s.events.fault.capture ..).isEmpty = false ∧ (s.events.fault.capture ..).first = _
    unfold FaultRecord.capture
    rw [if_pos hf]
    exact ⟨show (EventKind.bit .estop == 0) = false by decide, rfl⟩
  obtain ⟨pl, pd⟩ := publish_react s u
  have hsafe : InSafe (commit s u) := by
    unfold commit
    refine settle_inSafe (d := 0) ⟨?_, (OwnerKept.publish_executor s u).trans (hexe.trans h.2)⟩ ?_
    · rw [pl, hlev]
      exact h.1
    · rwa [hdef, show (enforceHold { s with pins.estop := true }).react.deferred = [] from hd] at pd
  have hpins : (commit s u).pins = { s.pins with estop := true } :=
    ((publish_frame s u).trans (settle_frame _)).pins.trans hp
  exact ⟨hsafe, estopFirst_kept.commit s u hfirst, hpins⟩

/-! ## Starts -/

/-- R23, R206: a start with ESTOP released ends there; an ESTOP found active is taken as becoming active. -/
theorem takeEstop_released {s : State} (h : s.pins.estop = false) : takeEstop s = s := by
  rw [takeEstop, if_neg (by rw [h]; decide)]

theorem takeEstop_active {s : State} (hr : s.runs = true) (h : s.pins.estop = true) :
    Host.Outcome.next (takeEstop s) = exec .estopActive { s with pins.estop := false } := by
  rw [exec_estopActive (s := { s with pins.estop := false }) hr rfl, takeEstop, if_pos h]

/-- R206: how a start that the settings store is read for ends. -/
theorem start_outcome {b : State} (hr : b.runs = true) :
    (b.pins.estop = false → (.next (takeEstop (loadStore b)) : Host.Outcome State Fault Refusal) =
      .next (loadStore b)) ∧
    (b.pins.estop = true → .next (takeEstop (loadStore b)) =
      exec .estopActive { loadStore b with pins.estop := false }) := by
  have hp := loadStore_pins b
  refine ⟨fun h => ?_, fun h => takeEstop_active ?_ ?_⟩
  · rw [takeEstop_released (by rw [hp]; exact h)]
  · rw [State.runs, hp]
    exact hr
  · rw [hp]
    exact h

theorem loadStore_blank {s : State} (h : currentContents s.nvm.places = none) : loadStore s = s := by
  rw [loadStore, h]

theorem takeEstop_first {s : State} (he : s.pins.estop = true) (h : LevelZeroIdle s)
    (hd : s.react.deferred = []) (hr : s.events.reports = []) (hf : s.events.fault.isEmpty = true) :
    (takeEstop s).line.mode = .safe ∧ EstopFirst (takeEstop s).events ∧
      (takeEstop s).pins = s.pins := by
  have hp : { s.pins with estop := true } = s.pins := by rw [← he]
  obtain ⟨hm, hk, hpins⟩ := estopPressed_first (s := { s with pins.estop := false }) h hd hr hf
  have e : takeEstop s = estopPressed { s with pins.estop := false } := if_pos he
  rw [e]
  exact ⟨hm, hk, hpins.trans hp⟩

/-- R205: a part that does not run drives no pin. -/
theorem pins_off {s : State} (h : s.runs = false) : nipPin s = false ∧ feedPin s = false ∧
    beaconPin s = false ∧ (∀ z : Fin 6, heaterPin s z = false) ∧ ∀ n : Fin 5, analogPin s n = 0 := by
  simp [nipPin, feedPin, beaconPin, heaterPin, analogPin, h]

/-- Settles O51: a start reads the settings store and then takes an active ESTOP; the rest is held in reset. -/
theorem partStartsAndResets : Obligations.PartStartsAndResets := by
  unfold Obligations.PartStartsAndResets
  refine ⟨fun straps s hr => ?_, fun straps s hp hr => ?_, fun s => ⟨fun hp hr => ?_, ?_⟩⟩
  · intro blank b
    have hb : blank.runs = true := by simp [blank, State.runs, hr]
    have he : exec (.powerOn straps) s = .next (takeEstop b) := by
      show Host.Outcome.next (powerOn straps s) = _
      rw [powerOn, if_neg (by rw [hr]; decide)]
      rfl
    obtain ⟨h1, h2⟩ := start_outcome hb
    refine ⟨fun h => he.trans (h1 h), fun h => he.trans (h2 h),
      loadStore_blank (s := blank), fun hc h => ?_⟩
    have hbe : b = blank := loadStore_blank hc
    refine ⟨_, he, ?_⟩
    rw [hbe]
    obtain ⟨hm, ⟨hk, -, hf⟩, hpins⟩ := takeEstop_first (s := blank) h ⟨rfl, rfl⟩ rfl rfl rfl
    exact ⟨hk, hf, hpins, hm⟩
  · intro b
    obtain ⟨h1, h2⟩ := start_outcome (b := blankStart .warm s.link.priorMode s.events.fault
      { s with pins.resetActive := false, pins.straps := straps }) (by simp [blankStart, State.runs, hp])
    have he : exec (.resetLineRelease straps) s = .next (takeEstop b) := by
      show Host.Outcome.next (resetReleased straps s) = _
      rw [resetReleased, if_pos hr]
      dsimp only
      rw [if_pos hp]
      rfl
    exact ⟨fun h => he.trans (h1 h), fun h => he.trans (h2 h)⟩
  · refine ⟨holdInReset (some s.line.mode) s.events.fault { s with pins.resetActive := true }, ?_, ?_⟩
    · show Host.Outcome.next (resetActivated s) = _
      rw [resetActivated, if_neg (by rw [hr]; decide)]
      dsimp only
      rw [if_pos hp]
    · have h : (holdInReset (some s.line.mode) s.events.fault
          { s with pins.resetActive := true }).runs = false := by simp [holdInReset, blankStart, State.runs]
      obtain ⟨h1, h2, h3, h4, h5⟩ := pins_off h
      exact ⟨⟨h, h1, h2, h3, h4, h5, rfl, rfl, rfl, rfl, rfl, rfl, rfl, rfl, rfl⟩, rfl, rfl, rfl⟩
  · refine ⟨holdInReset none FaultRecord.empty { s with pins.powered := false }, rfl, ?_⟩
    have h : (holdInReset none FaultRecord.empty { s with pins.powered := false }).runs = false := rfl
    obtain ⟨h1, h2, h3, h4, h5⟩ := pins_off h
    exact ⟨⟨h, h1, h2, h3, h4, h5, rfl, rfl, rfl, rfl, rfl, rfl, rfl, rfl, rfl⟩, rfl, rfl, rfl⟩

end Sys2Proof.Machine

namespace Sys2Proof.Machine

/-! ## The end of a sent frame -/

theorem exec_transmitComplete {s : State} (hr : s.runs = true) :
    exec .transmitComplete s = .next (frameSent s) :=
  congrArg Host.Outcome.next (whenRuns_running hr _)

theorem frameSent_restart {s : State} {f : Frame} (h : s.link.sending = some f)
    (hr : s.link.restarting = true) (hk : isRestartReply f = true) :
    frameSent s = startPart .restart (some s.line.mode) s.events.fault s := by
  rw [frameSent, h]
  dsimp only
  rw [if_pos (by rw [hr, hk]; rfl)]

/-- R199: the line is idle for the next frame, and the buffer is served. -/
theorem frameSent_next {s : State} {f : Frame} (h : s.link.sending = some f)
    (hr : s.link.restarting = false ∨ f.kind ≠ 0x9F) :
    frameSent s = serveBuffer (transmitNext { s with link.sending := none }) := by
  rw [frameSent, h]
  dsimp only
  refine if_neg fun hc => ?_
  simp only [Bool.and_eq_true, isRestartReply, beq_iff_eq] at hc
  obtain ⟨hc, hk, -⟩ := hc
  exact hr.elim (fun hr => Bool.false_ne_true (hr.symm.trans hc)) (fun hr => hr hk)

theorem transmitNext_reply {s : State} {r : Frame} (h : s.link.slot = some r) :
    transmitNext { s with link.sending := none } =
      { s with link.sending := some r, link.slot := none } := by
  unfold transmitNext
  dsimp only
  rw [h]

theorem transmitNext_idle {s : State} (h : s.link.slot = none) (hr : s.events.reports = []) :
    transmitNext { s with link.sending := none } = { s with link.sending := none } := by
  unfold transmitNext
  dsimp only
  rw [h, hr]

theorem transmitNext_report {s : State} {r : Report} {rest : List Report} (h : s.link.slot = none)
    (hr : s.events.reports = r :: rest) : transmitNext { s with link.sending := none } =
      payNotice { s with link.sending := some r.frame, events.reports := rest } := by
  unfold transmitNext
  dsimp only
  rw [h, hr]

/-- Settles O48: the restart at the end of its reply; the reply, then the oldest report, is sent next. -/
theorem transmitterTakesReplyFirst : Obligations.TransmitterTakesReplyFirst := by
  unfold Obligations.TransmitterTakesReplyFirst
  refine fun s f hr hs => ⟨fun hx hk hp => ?_, fun hx => ?_, fun r => ?_⟩
  · intro b
    have hb : (blankStart .restart (some s.line.mode) s.events.fault s).runs = true := hr
    obtain ⟨h1, h2⟩ := start_outcome hb
    have hf : isRestartReply f = true := by
      rw [isRestartReply, hk, hp]
      rfl
    have he : exec .transmitComplete s = .next (takeEstop b) := by
      rw [exec_transmitComplete hr, frameSent_restart hs hx hf]
      rfl
    exact ⟨fun h => he.trans (h1 h), fun h => he.trans (h2 h)⟩
  · rw [exec_transmitComplete hr, frameSent_next hs hx]
    refine ⟨fun r h => ?_, fun h h0 => ?_, fun r rest h h0 ho => ?_, fun r rest h h0 ho => ?_⟩
    · rw [transmitNext_reply h]
    · rw [transmitNext_idle h h0]
    · rw [transmitNext_report h h0, payNotice]
      dsimp only
      rw [if_neg (by rw [ho]; decide)]
    · rw [transmitNext_report h h0, payNotice]
      dsimp only
      rw [if_pos ho]
  · exact ⟨(putReply_cases r s).2 f hs, (putReply_cases r { s with link.sending := none }).1 rfl⟩

end Sys2Proof.Machine

namespace Sys2Proof.Machine

/-! ## Where an arrival goes -/

theorem asFin_val {n : Nat} (x : Fin n) : asFin n x.val = some x := dif_pos x.isLt

theorem asFin_none {n v : Nat} (h : n ≤ v) : asFin n v = none := dif_neg (Nat.not_lt.mpr h)

theorem channelZone_temp {c : Fin 16} {z : Fin 6} (h : c.val = z.val) : channelZone c = some z := by
  rw [channelZone, h, asFin_val]

theorem channelZone_none {c : Fin 16} (h : 6 ≤ c.val) : channelZone c = none := asFin_none h

theorem channelLoop_temp {c : Fin 16} {z : Fin 6} (h : c.val = z.val) :
    channelLoop c = some (zoneLoop z) := by
  rw [channelLoop, h]
  exact asFin_val (zoneLoop z)

theorem channelLoop_force {c : Fin 16} {x : Fin 4} (h : c.val = 6 + x.val) :
    channelLoop c = some (spanLoop x) := by
  rw [channelLoop, h]
  exact asFin_val (spanLoop x)

theorem channelLoop_none {c : Fin 16} (h : 10 ≤ c.val) : channelLoop c = none := asFin_none h

theorem channelSpan_force {c : Fin 16} {x : Fin 4} (h : c.val = 6 + x.val) :
    channelSpan c = some x := by
  rw [channelSpan, if_neg (by omega), h, Nat.add_sub_cancel_left, asFin_val]

theorem channelSpan_none {c : Fin 16} (h : 10 ≤ c.val) : channelSpan c = none := by
  rw [channelSpan, if_neg (by omega), asFin_none (by omega)]

/-! ## The dwell check -/

theorem zonesInBand_iff (s : State) : (List.finRange 6).all (zoneInBand s) = true ↔
    ∀ (z : Fin 6) (c : Fin 16), c.val = z.val → (s.meas.channels[c]).stale = false ∧
      |(s.meas.channels[c]).processed - (s.loops.loops[zoneLoop z]).setpoint| ≤ s.line.readyBand := by
  simp only [List.all_eq_true, List.mem_finRange, true_implies, zoneInBand, Bool.and_eq_true,
    Bool.not_eq_true', decide_eq_true_eq]
  refine ⟨fun h z c hc => ?_, fun h z => h z ⟨z.val, by omega⟩ rfl⟩
  have e : c = ⟨z.val, by omega⟩ := Fin.ext hc
  rw [e]
  exact h z

theorem checkDwell_starts {s : State} (hm : s.line.mode = .warming)
    (hb : (List.finRange 6).all (zoneInBand s) = true) (hd : s.line.dwell = none) :
    checkDwell s = { s with line.dwell := some s.line.readyDwell } := by
  rw [checkDwell, if_pos hm, if_pos hb, hd]

theorem checkDwell_goesOn {s : State} (hm : s.line.mode = .warming)
    (hb : (List.finRange 6).all (zoneInBand s) = true) (hd : s.line.dwell ≠ none) :
    checkDwell s = s := by
  obtain ⟨d, hd⟩ := Option.ne_none_iff_exists'.mp hd
  rw [checkDwell, if_pos hm, if_pos hb, hd]

/-! ## A held loop -/

/-- R68 to R70: a refresh takes the mode that the loop is given. -/
theorem refreshLoop_takes (s : State) (k : Fin 10) :
    refreshLoop s k = takeMode k (settledMode s k) s := by
  unfold refreshLoop settledMode
  dsimp only
  cases baseMode s k <;> dsimp only
  all_goals cases (s.loops.loops[k]).override <;> rfl

theorem settledMode_ne_off {s : State} {k : Fin 10} (hb : baseMode s k ≠ .off)
    (ho : (s.loops.loops[k]).override ≠ some .off) : settledMode s k ≠ .off := by
  unfold settledMode
  split
  · next h => exact absurd h hb
  · split
    · next o e =>
      intro h
      exact ho (by rw [e, h])
    · unfold ownMode
      split
      · exact nofun
      · exact hb

theorem enterMode_stale (m : LoopMode) (l : LoopRec) : (enterMode m l).stale = l.stale := by
  cases m <;> rfl

/-- R67: an entry into a mode but OFF leaves the output and the integrator as they were. -/
theorem enterMode_output {m : LoopMode} (h : m ≠ .off) (l : LoopRec) :
    (enterMode m l).u = l.u ∧ (enterMode m l).i = l.i := by
  cases m
  · exact absurd rfl h
  all_goals exact ⟨rfl, rfl⟩

/-- R67, R79: a heat loop has no web-loss timing to re-arm. -/
theorem takeMode_heat_spans {k : Fin 10} (hk : k.val < 6) (m : LoopMode) (s : State) :
    (takeMode k m s).loops.spans = s.loops.spans := by
  unfold takeMode rearmSpan
  rw [loopSpan_heat hk]
  split <;> rfl

/-- R32, R38: the loop's channel has become stale. -/
def staled (k : Fin 10) (s : State) : State := modifyLoop k (fun l => { l with stale := true }) s

theorem staled_same (k : Fin 10) (s : State) :
    (staled k s).loops.loops[k] = { s.loops.loops[k] with stale := true } := by
  simp [staled, modifyLoop_getElem]

theorem staled_other {k j : Fin 10} (h : j ≠ k) (s : State) :
    (staled k s).loops.loops[j] = s.loops.loops[j] := by
  simp [staled, modifyLoop_getElem, Fin.val_inj, h]

/-- The state that a held arrival or a stale notice leaves of a loop, before its hand-over. -/
def heldLoop (k : Fin 10) (s : State) : State := enforceHold (refreshLoop (staled k s) k)

theorem loopStale_eq (k : Fin 10) (s : State) : loopStale k s = commit s (heldLoop k s) := rfl

theorem heldLoop_same (k : Fin 10) (s : State) : (heldLoop k s).loops.loops[k] =
    if ((staled k s).loops.loops[k]).mode = settledMode (staled k s) k then (staled k s).loops.loops[k]
    else enterMode (settledMode (staled k s) k) (staled k s).loops.loops[k] := by
  show (refreshLoop (staled k s) k).loops.loops[k] = _
  rw [refreshLoop_takes, takeMode_loop, if_pos rfl]

theorem heldLoop_stale (k : Fin 10) (s : State) : ((heldLoop k s).loops.loops[k]).stale = true := by
  rw [heldLoop_same, staled_same]
  split
  · rfl
  · rw [enterMode_stale]

theorem heldLoop_output {k : Fin 10} {s : State} (hb : baseMode s k ≠ .off)
    (ho : (s.loops.loops[k]).override ≠ some .off) :
    ((heldLoop k s).loops.loops[k]).u = (s.loops.loops[k]).u ∧
      ((heldLoop k s).loops.loops[k]).i = (s.loops.loops[k]).i := by
  have hm : settledMode (staled k s) k ≠ .off := settledMode_ne_off hb (by rwa [staled_same])
  rw [heldLoop_same, staled_same]
  split
  · exact ⟨rfl, rfl⟩
  · exact enterMode_output hm _

/-- R69: a tension loop in AUTO with no override goes to HOLD. -/
theorem heldLoop_hold {k : Fin 10} {s : State} (hk : 6 ≤ k.val) (hb : baseMode s k = .auto)
    (ho : (s.loops.loops[k]).override = none) : ((heldLoop k s).loops.loops[k]).mode = .hold := by
  have hh : isHeatLoop k = false := by simpa [isHeatLoop] using hk
  have e := (refreshLoop_same (staled k s) k).1
  rw [settledMode_own (by rwa [staled_same]), staled_same,
    show baseMode (staled k s) k = .auto from hb, ownMode, if_pos ⟨rfl, rfl, hh⟩] at e
  exact e

theorem heldLoop_other {k j : Fin 10} (h : j ≠ k) (s : State) :
    (heldLoop k s).loops.loops[j] = s.loops.loops[j] := by
  show (refreshLoop (staled k s) k).loops.loops[j] = _
  rw [refreshLoop_other _ h, staled_other h]

theorem heldLoop_heldOff {k : Fin 10} {z : Fin 6} (h : zoneLoop z = k) (s : State) :
    heldOff (heldLoop k s) z = true := by
  subst h
  rw [heldOff, heldLoop_stale, Bool.or_true]
  rfl

/-- R74: the loop's own zone is held off. -/
theorem heldLoop_zone {k : Fin 10} {z : Fin 6} (h : zoneLoop z = k) (s : State) :
    ((heldLoop k s).loops.zones[z]).active = 0 ∧ ((heldLoop k s).loops.zones[z]).heaterOn = false ∧
      pendingDuty (heldLoop k s) z = 0 := by
  have hh := heldLoop_heldOff h s
  obtain ⟨ha, hp⟩ := enforceHold_held ((heldOff_enforceHold _ z).symm.trans hh)
  exact ⟨ha, hp, pendingDuty_heldOff hh⟩

theorem heldLoop_zone_other {k : Fin 10} {z : Fin 6} (h : zoneLoop z ≠ k) {s : State}
    (hs : heldOff s z = false) : (heldLoop k s).loops.zones[z] = s.loops.zones[z] := by
  have hz : (refreshLoop (staled k s) k).loops.zones = s.loops.zones := refreshLoop_zones ..
  have hh : heldOff (refreshLoop (staled k s) k) z = heldOff s z := by
    rw [heldOff, refreshLoop_other _ h, staled_other h, hz, (refreshLoop_frame ..).pins]
    rfl
  rw [heldLoop, enforceHold_zone, holdZone, hh, hs, hz]
  rfl

theorem heldLoop_heat_spans {k : Fin 10} (h : k.val < 6) (s : State) :
    (heldLoop k s).loops.spans = s.loops.spans := by
  show (refreshLoop (staled k s) k).loops.spans = _
  rw [refreshLoop_takes, takeMode_heat_spans h]
  rfl

/-- Settles O17: the consumers of a channel by its number, the dwell check, and a loop held. -/
theorem arrivalsReachConsumers : Obligations.ArrivalsReachConsumers := by
  unfold Obligations.ArrivalsReachConsumers
  refine ⟨⟨fun c z p s h => ?_, fun c x p s h => ?_, fun c p s h => ?_, fun s => ?_⟩, fun k s => ?_⟩
  · simp only [freshArrival, heldArrival, staleNotice, channelZone_temp h, channelLoop_temp h]
    exact ⟨trivial, trivial, trivial⟩
  · simp only [freshArrival, heldArrival, staleNotice, channelZone_none (c := c) (by omega),
      channelLoop_force h, channelSpan_force h]
    exact ⟨trivial, trivial, trivial⟩
  · simp only [freshArrival, heldArrival, staleNotice, channelZone_none (c := c) (by omega),
      channelLoop_none h, channelSpan_none h]
    exact ⟨trivial, trivial, trivial⟩
  · intro inBand
    have hb := zonesInBand_iff s
    refine ⟨fun hm hi hd => checkDwell_starts hm (hb.mpr hi) hd,
      fun hm hi hd => checkDwell_goesOn hm (hb.mpr hi) hd, fun hm hi => ?_, (checkDwell_units s).2.1⟩
    rw [checkDwell, if_pos hm, if_neg (fun hc => hi (hb.mp hc))]
  · obtain ⟨f, l, n, e⟩ := refreshLoop_units (staled k s) k
    exact ⟨heldLoop k s, loopStale_eq k s, heldLoop_stale k s, heldLoop_output,
      fun z h => heldLoop_zone h s, heldLoop_hold, fun j h => heldLoop_other h s,
      fun z h hs => heldLoop_zone_other h hs, fun h => heldLoop_heat_spans h s, f.outputs, l, f.meas,
      f.bands, f.profiles, f.engine, e, refreshLoop_react _ k, n, f.nvm, f.user, f.pins⟩

end Sys2Proof.Machine

namespace Sys2Proof.Machine

/-! ## How one pair of a POINT_WRITE is judged -/

/-- Table 3-3: every point is found at its number. -/
theorem ofNumber_number (p : Point) : Point.ofNumber p.number = some p := by
  cases p
  all_goals try (rename_i x; revert x)
  all_goals decide

theorem writeByNumber_live {n : Nat} {p : Point} (hp : Point.ofNumber n = some p) (hc : p.cls = .live)
    (v : Int) (s : State) : writeByNumber n v s = ⟨s, .readOnly⟩ := by
  rw [writeByNumber, hp]
  dsimp only
  rw [hc]

theorem writeByNumber_guarded {n : Nat} {p : Point} (hp : Point.ofNumber n = some p)
    (hc : p.cls = .guarded) (v : Int) {s : State} (hm : s.line.mode ≠ .off) :
    writeByNumber n v s = ⟨s, .mode⟩ := by
  rw [writeByNumber, hp]
  dsimp only
  rw [hc]
  exact if_neg hm

/-- R50: a SETTING point is written in every mode, a GUARDED one in OFF. -/
theorem writeByNumber_setting {n : Nat} {p : Point} (hp : Point.ofNumber n = some p) {s : State}
    (hc : p.cls = .setting ∨ (p.cls = .guarded ∧ s.line.mode = .off)) (v : Int) :
    writeByNumber n v s = settingWrite p v s := by
  rw [writeByNumber, hp]
  dsimp only
  rcases hc with hc | ⟨hc, hm⟩ <;> rw [hc]
  exact if_pos hm

theorem writeByNumber_forceable {n : Nat} {p : Point} (hp : Point.ofNumber n = some p)
    (hc : p.cls = .forceable) (v : Int) (s : State) : writeByNumber n v s = writeForceable p v s := by
  rw [writeByNumber, hp]
  dsimp only
  rw [hc]

theorem clampStatus_taken (v w : Int) : clampStatus v w = .ok ∨ clampStatus v w = .clamped := by
  unfold clampStatus
  split
  · exact .inl rfl
  · exact .inr rfl

theorem clampStatus_ok_iff (v w : Int) : clampStatus v w = .ok ↔ w = v := by
  unfold clampStatus
  split <;> simp_all

/-- R49: a write that is refused leaves the state as it was. -/
def RefusalsKeep (s : State) (r : WriteResult) : Prop :=
  r.status ≠ .ok → r.status ≠ .clamped → r.state = s

theorem RefusalsKeep.of_clamped {s t : State} {v w : Int} : RefusalsKeep s ⟨t, clampStatus v w⟩ :=
  fun h1 h2 => ((clampStatus_taken v w).elim h1 h2).elim

theorem RefusalsKeep.refused {s : State} {x : Status} : RefusalsKeep s ⟨s, x⟩ := fun _ _ => rfl

theorem RefusalsKeep.ok {s t : State} : RefusalsKeep s ⟨t, .ok⟩ := fun h _ => (h rfl).elim

theorem settingWrite_refusalsKeep (p : Point) (v : Int) (s : State) :
    RefusalsKeep s (settingWrite p v s) := by
  unfold settingWrite
  split
  · exact .of_clamped
  · exact .of_clamped
  · exact .of_clamped
  · exact .of_clamped
  · unfold writeLoopOutput
    dsimp only
    split
    · exact .of_clamped
    · exact .refused
  · unfold writeLoopMode
    dsimp only
    split
    · exact .of_clamped
    · split
      · exact .of_clamped
      · exact .refused
  · unfold writeOutSource
    split
    · exact .refused
    · exact .ok
  · exact .of_clamped

theorem writeForceable_refusalsKeep (p : Point) (v : Int) (s : State) :
    RefusalsKeep s (writeForceable p v s) := by
  unfold writeForceable
  split
  · split
    · exact .of_clamped
    · exact .refused
  · split
    · exact .ok
    · exact .refused
  · split
    · unfold writeForcedProcessed
      dsimp only
      split
      · exact .ok
      · exact fun _ h => (h rfl).elim
    · exact .refused
  · exact .refused

theorem writeByNumber_refusalsKeep (n : Nat) (v : Int) (s : State) :
    RefusalsKeep s (writeByNumber n v s) := by
  unfold writeByNumber
  split
  · exact .refused
  · split
    · exact .refused
    · exact settingWrite_refusalsKeep _ v s
    · split
      · exact settingWrite_refusalsKeep _ v s
      · exact .refused
    · exact writeForceable_refusalsKeep _ v s

/-- R45, R51: the values of a channel that is not FORCED are read only. -/
theorem writeByNumber_unforced {n : Nat} {c : Fin 16} {s : State}
    (h : (s.meas.channels[c]).mode ≠ .forced)
    (hn : n = 36 + 4 * c.val ∨ n = 37 + 4 * c.val ∨ n = 38 + 4 * c.val) (v : Int) :
    writeByNumber n v s = ⟨s, .readOnly⟩ := by
  rcases hn with rfl | rfl | rfl
  · exact (writeByNumber_forceable (ofNumber_number (.chanRaw c)) rfl v s).trans (if_neg h)
  · exact (writeByNumber_forceable (ofNumber_number (.chanScaled c)) rfl v s).trans (if_neg h)
  · exact (writeByNumber_forceable (ofNumber_number (.chanProcessed c)) rfl v s).trans (if_neg h)

/-! ## Plain settings -/

theorem plainRange_le (p : Point) : (plainRange p).1 ≤ (plainRange p).2 := by
  unfold plainRange
  split <;> decide

theorem raiseLimits_overheatMargin (s : State) :
    (raiseLimits s).loops.overheatMargin = s.loops.overheatMargin := by
  unfold raiseLimits
  split <;> rfl

theorem checkDwell_standbyTemp (s : State) :
    (checkDwell s).loops.standbyTemp = s.loops.standbyTemp := by
  rw [(checkDwell_units s).2.2.1]

theorem refreshHeatSetpoints_standbyTemp (s : State) :
    (refreshHeatSetpoints s).loops.standbyTemp = s.loops.standbyTemp := by
  unfold refreshHeatSetpoints
  dsimp only
  split
  · rw [checkDwell_standbyTemp]
  · rfl

/-- The points that a write takes by a rule of their own (R52, R70, R71). -/
def hasOwnRule : Point → Bool
  | .linkSilence | .heaterWindow | .loopOutMin _ | .loopOutMax _ | .loopOutput _ | .loopMode _
  | .outSource _ => true
  | _ => false

theorem settingWrite_plain {p : Point} (h : hasOwnRule p = false) (v : Int) (s : State) :
    settingWrite p v s = writePlain p v s := by
  cases p <;> first | rfl | exact absurd h nofun

/-- R49: a plain setting that was written is read back. -/
theorem readPoint_storePlain {p : Point} (hc : p.cls = .setting ∨ p.cls = .guarded)
    (h : hasOwnRule p = false) (v : Int) (s : State) : readPoint (storePlain p v s) p = v := by
  cases p
  case countsPerMm =>
    simp only [storePlain]
    split
    · next e => exact e.symm
    · rfl
  case overheatMargin => exact raiseLimits_overheatMargin _
  case standbyTemp =>
    simp only [storePlain]
    split
    · exact refreshHeatSetpoints_standbyTemp _
    · rfl
  all_goals try simp [Point.cls] at hc
  all_goals try simp [hasOwnRule] at h
  all_goals simp [storePlain, readPoint, recomputeOutput, modifyChannel_getElem, modifyLoop_getElem,
    modifySpan_getElem, modifyOutput_getElem]

end Sys2Proof.Machine

namespace Sys2Proof.Machine

/-! ## The settings whose ranges have conditions -/

/-- R52, R203: link_silence is taken as 0, or between 500 and 60000; it acts on the arming alone. -/
theorem writeLinkSilence_taken (v : Int) (s : State) :
    let w : Int := if v ≤ 0 then 0 else if v < 500 then 500 else min v 60000
    (writeLinkSilence v s).state = { s with
      link.linkSilence := w
      link.silenceArmed :=
        (if w = 0 then false
         else if s.line.mode ≠ .off ∧ s.link.linkSilence = 0 then true else s.link.silenceArmed)
      link.silence := if w = 0 then none else s.link.silence } ∧
    ((writeLinkSilence v s).status = .ok ↔ v = 0 ∨ (500 ≤ v ∧ v ≤ 60000)) := by
  intro w
  have hw : linkSilenceValue v = w := by
    unfold linkSilenceValue
    dsimp only [w]
    split
    · rfl
    · split
      · rfl
      · split <;> omega
  unfold writeLinkSilence
  dsimp only
  rw [hw, clampStatus_ok_iff]
  refine ⟨?_, ?_⟩
  · unfold silenceOnWrite
    by_cases h0 : w = 0
    · simp only [h0, if_true]
    · by_cases ha : s.line.mode ≠ .off ∧ s.link.linkSilence = 0
      · simp only [if_neg h0, if_pos ha]
      · simp only [if_neg h0, if_neg ha]
  · dsimp only [w]
    split
    · omega
    · split <;> omega

theorem writeHeaterWindow_taken (v : Int) (s : State) :
    (writeHeaterWindow v s).state =
        { s with loops.heaterWindow := Int.fdiv (max 500 (min v 10000)) 100 * 100 } ∧
      ((writeHeaterWindow v s).status = .ok ↔ 500 ≤ v ∧ v ≤ 10000 ∧ v % 100 = 0) := by
  have hw : heaterWindowValue v = Int.fdiv (max 500 (min v 10000)) 100 * 100 := by
    rw [heaterWindowValue, clampTo_eq_max_min (by decide)]
    rfl
  unfold writeHeaterWindow
  dsimp only
  rw [hw, clampStatus_ok_iff, Int.fdiv_eq_ediv_of_nonneg _ (by decide)]
  exact ⟨rfl, by omega⟩

/-- R52: after a write of a bound the output and the integrator lie within the bounds. -/
theorem reclampLoop_within {l : LoopRec} (h : l.outMin ≤ l.outMax) :
    l.outMin ≤ (reclampLoop l).u ∧ (reclampLoop l).u ≤ l.outMax ∧
      256 * l.outMin ≤ (reclampLoop l).i ∧ (reclampLoop l).i ≤ 256 * l.outMax := by
  have h' : 256 * l.outMin ≤ 256 * l.outMax := by omega
  exact ⟨le_clampTo h _, clampTo_le h _, le_clampTo h' _, clampTo_le h' _⟩

theorem modifyLoop_same (k : Fin 10) (f : LoopRec → LoopRec) (s : State) :
    (modifyLoop k f s).loops.loops[k] = f s.loops.loops[k] := by simp [modifyLoop_getElem]

theorem boundClamp_eq (k : Fin 10) (v : Int) : clampTo (boundRange k).1 (boundRange k).2 v =
    max (if k.val < 6 then 0 else -200) (min v (if k.val < 6 then 1000 else 200)) := by
  unfold boundRange
  by_cases h : k.val < 6
  · rw [if_pos ((isHeatLoop_iff k).mpr h), if_pos h, if_pos h, clampTo_eq_max_min (by decide)]
  · rw [if_neg (fun hc => h ((isHeatLoop_iff k).mp hc)), if_neg h, if_neg h,
      clampTo_eq_max_min (by decide)]

theorem writeOutMin_loop (k : Fin 10) (v : Int) (s : State) :
    let a := (writeOutMin k v s).state.loops.loops[k]
    a.outMin = min (clampTo (boundRange k).1 (boundRange k).2 v) (s.loops.loops[k]).outMax ∧
      a.outMax = (s.loops.loops[k]).outMax ∧ a.outMin ≤ a.u ∧ a.u ≤ a.outMax ∧
      256 * a.outMin ≤ a.i ∧ a.i ≤ 256 * a.outMax := by
  unfold writeOutMin
  dsimp only
  rw [modifyLoop_same]
  exact ⟨rfl, rfl, reclampLoop_within (min_le_right _ _)⟩

theorem writeOutMax_loop (k : Fin 10) (v : Int) (s : State) :
    let a := (writeOutMax k v s).state.loops.loops[k]
    a.outMax = max (clampTo (boundRange k).1 (boundRange k).2 v) (s.loops.loops[k]).outMin ∧
      a.outMin = (s.loops.loops[k]).outMin ∧ a.outMin ≤ a.u ∧ a.u ≤ a.outMax ∧
      256 * a.outMin ≤ a.i ∧ a.i ≤ 256 * a.outMax := by
  unfold writeOutMax
  dsimp only
  rw [modifyLoop_same]
  exact ⟨rfl, rfl, reclampLoop_within (le_max_right _ _)⟩

/-! ## Writes of a loop's output and mode -/

/-- R71: a loop's output is written in MANUAL, within its bounds. -/
theorem writeLoopOutput_manual {k : Fin 10} {s : State} (hm : (s.loops.loops[k]).mode = .manual)
    (hb : (s.loops.loops[k]).outMin ≤ (s.loops.loops[k]).outMax) (v : Int) :
    (writeLoopOutput k v s).state = { s with
      loops.loops := upd s.loops.loops k { s.loops.loops[k] with
        u := max (s.loops.loops[k]).outMin (min v (s.loops.loops[k]).outMax) } } := by
  unfold writeLoopOutput
  dsimp only
  rw [if_pos hm, clampTo_eq_max_min hb]
  rfl

theorem writeLoopOutput_refused {k : Fin 10} {s : State} (hm : (s.loops.loops[k]).mode ≠ .manual)
    (v : Int) : writeLoopOutput k v s = ⟨s, .mode⟩ := if_neg hm

theorem takeMode_override {k : Fin 10} {m : LoopMode} {s : State}
    (h : m ≠ .off ∨ (s.loops.loops[k]).override = none) :
    ((takeMode k m s).loops.loops[k]).override = (s.loops.loops[k]).override := by
  rw [takeMode_loop, if_pos rfl]
  split
  · rfl
  · cases m
    · exact (h.resolve_left (fun hc => hc rfl)).symm
    all_goals rfl

/-- R70: a loop with an override that the line mode allows. -/
theorem settledMode_override {s : State} {k : Fin 10} {m : LoopMode} (hb : baseMode s k ≠ .off)
    (h : (s.loops.loops[k]).override = some m) : settledMode s k = m := by
  unfold settledMode
  rw [h]
  split
  · next e => exact absurd e hb
  · rfl

/-- R70: the loop with an override set or taken back, with its mode taken afresh. -/
def overridden (k : Fin 10) (o : Option LoopMode) (s : State) : State :=
  enforceHold (refreshLoop (modifyLoop k (fun l => { l with override := o }) s) k)

theorem overridden_none (k : Fin 10) (s : State) :
    ((overridden k none s).loops.loops[k]).override = none ∧
      ((overridden k none s).loops.loops[k]).mode =
        ownMode k (baseMode s k) (s.loops.loops[k]).stale := by
  have hl := modifyLoop_same k (fun l => { l with override := none }) s
  show ((refreshLoop _ k).loops.loops[k]).override = none ∧ ((refreshLoop _ k).loops.loops[k]).mode = _
  rw [(refreshLoop_same ..).1, refreshLoop_takes, takeMode_override (.inr (by rw [hl])),
    settledMode_own (by rw [hl]), hl]
  exact ⟨rfl, rfl⟩

theorem overridden_some {k : Fin 10} {m : LoopMode} {s : State} (hb : baseMode s k ≠ .off)
    (hm : m ≠ .off) : ((overridden k (some m) s).loops.loops[k]).override = some m ∧
      ((overridden k (some m) s).loops.loops[k]).mode = m := by
  have hl := modifyLoop_same k (fun l => { l with override := some m }) s
  have hs := settledMode_override (k := k) (m := m)
    (s := modifyLoop k (fun l => { l with override := some m }) s) hb (by rw [hl])
  show ((refreshLoop _ k).loops.loops[k]).override = some m ∧ ((refreshLoop _ k).loops.loops[k]).mode = m
  rw [(refreshLoop_same ..).1, refreshLoop_takes, hs, takeMode_override (.inl hm), hl]
  exact ⟨rfl, rfl⟩

theorem writeLoopMode_base {k : Fin 10} {v : Int} {s : State}
    (h : LoopMode.ofInt (clampTo 0 3 v) = baseMode s k) :
    (writeLoopMode k v s).state = overridden k none s := by
  unfold writeLoopMode
  dsimp only
  rw [if_pos h]
  rfl

/-- R70: only MANUAL and HOLD can be written over a base mode. -/
theorem loopMode_written (v : Int) : LoopMode.ofInt (clampTo 0 3 v) = .manual ∨
    LoopMode.ofInt (clampTo 0 3 v) = .hold ↔ 2 ≤ v := by
  rw [clampTo_eq_max_min (by decide)]
  unfold LoopMode.ofInt
  split
  · simp
    omega
  · split
    · simp
      omega
    · split <;> simp <;> omega

theorem writeLoopMode_override {k : Fin 10} {v : Int} {s : State}
    (h : LoopMode.ofInt (clampTo 0 3 v) ≠ baseMode s k) (hv : 2 ≤ v) (hb : baseMode s k ≠ .off) :
    (writeLoopMode k v s).state = overridden k (some (LoopMode.ofInt (clampTo 0 3 v))) s := by
  unfold writeLoopMode
  dsimp only
  rw [if_neg h, if_pos ⟨(loopMode_written v).mpr hv, hb⟩]
  rfl

theorem writeLoopMode_refused {k : Fin 10} {v : Int} {s : State}
    (h : LoopMode.ofInt (clampTo 0 3 v) ≠ baseMode s k) (hv : v < 2 ∨ baseMode s k = .off) :
    writeLoopMode k v s = ⟨s, .mode⟩ := by
  unfold writeLoopMode
  dsimp only
  rw [if_neg h, if_neg]
  rintro ⟨h1, h2⟩
  rcases hv with hv | hv
  · exact absurd ((loopMode_written v).mp h1) (by omega)
  · exact h2 hv

/-! ## Values of a FORCED channel -/

theorem clampStatus_range (v lo hi : Int) (h : lo ≤ hi) :
    clampStatus v (clampTo lo hi v) = if lo ≤ v ∧ v ≤ hi then .ok else .clamped := by
  unfold clampStatus
  simp only [clampTo_eq_self_iff h]

theorem isForceChannel_iff (c : Fin 16) : isForceChannel c = true ↔ 6 ≤ c.val ∧ c.val ≤ 9 := by
  simp [isForceChannel]

theorem writeForcedProcessed_taken (c : Fin 16) (v : Int) (s : State) :
    let ch := s.meas.channels[c]
    let wideScaled := if 6 ≤ c.val ∧ c.val ≤ 9 then v + ch.zeroCorr else v
    let scaled := max (-2147483648) (min wideScaled 2147483647)
    let wideRaw :=
      if ch.scale = 0 then 0
      else Int.fdiv (2 * ((scaled - ch.offset) * 65536) + ch.scale) (2 * ch.scale) - ch.trim
    let raw := max 0 (min wideRaw 65535)
    writeForcedProcessed c v s =
      ⟨{ s with
          meas.channels := upd s.meas.channels c { ch with processed := v, scaled := scaled, raw := raw } },
        if scaled = wideScaled ∧ raw = wideRaw then .ok else .clamped⟩ := by
  intro ch wideScaled scaled wideRaw raw
  have h1 : backScaled (isForceChannel c) ch v = wideScaled := by
    unfold backScaled
    simp only [isForceChannel_iff, wideScaled]
  have h2 : clamp32 wideScaled = scaled := clampTo_eq_max_min (by decide) _
  have h3 : clampTo 0 65535 wideRaw = raw := clampTo_eq_max_min (by decide) _
  unfold writeForcedProcessed
  dsimp only
  rw [h1, h2, show backRaw ch scaled = wideRaw from rfl, h3]
  rfl

theorem writeByNumber_forced {c : Fin 16} {s : State} (h : (s.meas.channels[c]).mode = .forced)
    (v : Int) :
    writeByNumber (36 + 4 * c.val) v s =
      ⟨{ s with
          meas.channels := upd s.meas.channels c { s.meas.channels[c] with raw := max 0 (min v 65535) } },
        if 0 ≤ v ∧ v ≤ 65535 then .ok else .clamped⟩ ∧
    writeByNumber (37 + 4 * c.val) v s =
      ⟨{ s with meas.channels := upd s.meas.channels c { s.meas.channels[c] with scaled := v } }, .ok⟩ ∧
    writeByNumber (38 + 4 * c.val) v s = writeForcedProcessed c v s := by
  refine ⟨(writeByNumber_forceable (ofNumber_number (.chanRaw c)) rfl v s).trans ?_,
    (writeByNumber_forceable (ofNumber_number (.chanScaled c)) rfl v s).trans ?_,
    (writeByNumber_forceable (ofNumber_number (.chanProcessed c)) rfl v s).trans ?_⟩ <;>
    dsimp only [writeForceable] <;> rw [if_pos h]
  · rw [clampStatus_range _ _ _ (by decide), clampTo_eq_max_min (by decide)]
    rfl
  · rfl

end Sys2Proof.Machine

namespace Sys2Proof.Machine

/-! ## Settings that other values follow -/

theorem settingWrite_clamped {p : Point} (h : hasOwnRule p = false) (v : Int) (s : State) :
    (settingWrite p v s).state = storePlain p (max (plainRange p).1 (min v (plainRange p).2)) s := by
  rw [settingWrite_plain h, ← clampTo_eq_max_min (plainRange_le p)]
  rfl

theorem limitTarget_margin (s : State) (w : Int) : limitTarget { s with loops.overheatMargin := w } =
    s.profiles.heat.map fun l => (fabricOf s l.fabric).tSet + w := by
  unfold limitTarget heatFabric
  cases s.profiles.heat <;> rfl

theorem raiseLimits_none {s : State} (h : limitTarget s = none) : raiseLimits s = s := by
  unfold raiseLimits
  rw [h]

theorem refreshHeatSetpoints_setpoint (s : State) (k : Fin 10) :
    ((refreshHeatSetpoints s).loops.loops[k]).setpoint =
      if k.val < 6 then setpointOf s k else (s.loops.loops[k]).setpoint := by
  have hl : (refreshHeatSetpoints s).loops.loops = tab fun k =>
      if isHeatLoop k then { s.loops.loops[k] with setpoint := setpointOf s k }
      else s.loops.loops[k] := by
    unfold refreshHeatSetpoints
    dsimp only
    split
    · rw [(checkDwell_units _).2.2.1]
    · rfl
  rw [hl]
  simp only [Fin.getElem_fin, tab_getElem, isHeatLoop_iff]
  split <;> rfl

/-- R66: a held setpoint follows standby_temp. -/
theorem storePlain_standbyTemp (w : Int) (s : State) (k : Fin 10) :
    ((storePlain .standbyTemp w s).loops.loops[k]).setpoint =
      if s.line.heatHold = true ∧ k.val < 6 then (if s.profiles.heat = none then 0 else w)
      else (s.loops.loops[k]).setpoint := by
  by_cases hh : s.line.heatHold = true
  · have e : storePlain .standbyTemp w s = refreshHeatSetpoints { s with loops.standbyTemp := w } :=
      if_pos hh
    rw [e, refreshHeatSetpoints_setpoint]
    by_cases hk : k.val < 6
    · rw [if_pos hk, if_pos ⟨hh, hk⟩, setpointOf_heat hk]
      dsimp only
      cases s.profiles.heat
      · rfl
      · rw [hh]
        rfl
    · rw [if_neg hk, if_neg (fun hc => hk hc.2)]
  · have e : storePlain .standbyTemp w s = { s with loops.standbyTemp := w } := if_neg hh
    rw [e, if_neg (fun hc => hh hc.1)]

/-! ## The mapping of an output -/

theorem number_ofNumber_low : ∀ (i : Fin 23) (j : Fin 16),
    ((Point.ofNumber (16 * i.val + j.val)).all fun p => p.number == 16 * i.val + j.val) = true := by
  decide

/-- Table 3-3: a point is found at its own number alone. -/
theorem number_ofNumber {n : Nat} {p : Point} (h : Point.ofNumber n = some p) : p.number = n := by
  have hn : n < 368 := by
    by_contra hc
    have : Point.ofNumber n = none := by
      unfold Point.ofNumber
      rw [if_neg (by omega), if_neg (by omega), if_neg (by omega), if_neg (by omega), if_neg (by omega),
        if_neg (by omega), if_neg (by omega), if_neg (by omega), if_neg (by omega), if_neg (by omega),
        if_neg (by omega), if_neg (by omega), if_neg (by omega), if_neg (by omega)]
    rw [this] at h
    cases h
  have ha := number_ofNumber_low ⟨n / 16, by omega⟩ ⟨n % 16, by omega⟩
  dsimp only at ha
  rw [Nat.div_add_mod, h] at ha
  exact beq_iff_eq.mp ha

theorem ofInt_number (p : Point) : Point.ofInt p.number = some p := by
  rw [Point.ofInt, if_neg (by omega), Int.toNat_natCast, ofNumber_number]

theorem number_ofInt {v : Int} {p : Point} (h : Point.ofInt v = some p) : v = p.number := by
  unfold Point.ofInt at h
  split at h
  · cases h
  · have := number_ofNumber h
    omega

theorem chainLeadsTo_output (s : State) (n m : Fin 5) (fuel : Nat) :
    chainLeadsTo s n (fuel + 1) (Point.outCounts m).number =
      (m == n || chainLeadsTo s n fuel (s.loops.outputs[m]).source) := by
  rw [chainLeadsTo, ofInt_number]

theorem chainLeadsTo_other (s : State) (n : Fin 5) {v : Int}
    (h : ∀ m : Fin 5, v ≠ (Point.outCounts m).number) (fuel : Nat) :
    chainLeadsTo s n fuel v = false := by
  cases fuel
  · rfl
  · unfold chainLeadsTo
    split
    · next m e => exact absurd (number_ofInt e) (h m)
    · rfl

theorem upd_upd {α : Type} {n : Nat} (v : Vector α n) (i : Fin n) (x y : α) :
    upd (upd v i x) i y = upd v i y := by
  refine Vector.ext fun j hj => ?_
  rw [upd_getElem, upd_getElem, upd_getElem]
  split <;> rfl

theorem modifyOutput_same (n : Fin 5) (f : AnalogOut → AnalogOut) (s : State) :
    (modifyOutput n f s).loops.outputs[n] = f s.loops.outputs[n] := by simp [modifyOutput_getElem]

/-- No point but the output's own counts shows them. -/
theorem readPoint_counts {q : Point} {n : Fin 5} (h : q ≠ .outCounts n) (c : Int) (s : State) :
    readPoint (modifyOutput n (fun o => { o with counts := c }) s) q = readPoint s q := by
  cases q
  case outCounts m =>
    have hm : m.val ≠ n.val := fun e => h (by rw [Fin.ext e])
    simp [readPoint, modifyOutput_getElem, hm]
  case outSource m => simp only [readPoint, Fin.getElem_fin, modifyOutput_getElem]; split <;> rfl
  case outZero m => simp only [readPoint, Fin.getElem_fin, modifyOutput_getElem]; split <;> rfl
  case outFull m => simp only [readPoint, Fin.getElem_fin, modifyOutput_getElem]; split <;> rfl
  case outCalLo m => simp only [readPoint, Fin.getElem_fin, modifyOutput_getElem]; split <;> rfl
  case outCalHi m => simp only [readPoint, Fin.getElem_fin, modifyOutput_getElem]; split <;> rfl
  all_goals rfl

/-- R81: the counts of an output computed afresh are those of its source's value. -/
theorem recomputeOutput_eq {n : Fin 5} {s : State} {q : Point}
    (h : Point.ofInt (s.loops.outputs[n]).source = some q) : recomputeOutput n s =
      modifyOutput n (fun o => { o with counts := countsFor s.loops.outputs[n] (readPoint s q) }) s := by
  unfold recomputeOutput sourceValue
  rw [h]
  rfl

theorem recomputeOutput_counts {n : Fin 5} {s : State} {q : Point}
    (h : Point.ofInt (s.loops.outputs[n]).source = some q) (hq : q ≠ .outCounts n) :
    ((recomputeOutput n s).loops.outputs[n]).counts =
      countsFor (recomputeOutput n s).loops.outputs[n] (readPoint (recomputeOutput n s) q) := by
  rw [recomputeOutput_eq h, readPoint_counts hq, modifyOutput_same]
  rfl

/-- R52, R57: a source that is taken, with the counts that follow it. -/
theorem writeOutSource_taken {n : Fin 5} {v : Int} {s : State} {q : Point}
    (hq : Point.ofInt v = some q) (hb : chainLeadsTo s n 6 v = false) :
    writeOutSource n v s =
      ⟨{ s with
          loops.outputs := upd s.loops.outputs n { s.loops.outputs[n] with
            source := v
            counts := countsFor s.loops.outputs[n] (readPoint { s with
              loops.outputs := upd s.loops.outputs n { s.loops.outputs[n] with source := v } } q) } },
        .ok⟩ := by
  have hs := modifyOutput_same n (fun o => { o with source := v }) s
  unfold writeOutSource
  rw [if_neg (by simp [hq, hb]), recomputeOutput_eq (q := q) (by rw [hs]; exact hq), hs]
  unfold modifyOutput
  dsimp only
  rw [upd_upd]
  simp only [Fin.getElem_fin, upd_getElem_same]
  rfl

theorem writeOutSource_refused {n : Fin 5} {v : Int} {s : State}
    (h : Point.ofInt v = none ∨ chainLeadsTo s n 6 v = true) : writeOutSource n v s = ⟨s, .range⟩ := by
  refine if_pos ?_
  rcases h with h | h
  · rw [h]
    rfl
  · rw [h, Bool.or_true]

/-- R81: a write of the mapping computes the counts afresh. -/
theorem mappingWrite_state {k : Nat} (h1 : 311 ≤ k) (h2 : k ≤ 314) (n : Fin 5) (v : Int) (s : State) :
    ∃ f : AnalogOut → AnalogOut, (∀ o, (f o).source = o.source) ∧
      (writeByNumber (k + 6 * n.val) v s).state = recomputeOutput n (modifyOutput n f s) := by
  obtain rfl | rfl | rfl | rfl : k = 311 ∨ k = 312 ∨ k = 313 ∨ k = 314 := by omega
  · exact ⟨fun o => { o with zeroAt := clampTo (plainRange (.outZero n)).1 (plainRange (.outZero n)).2 v },
      fun _ => rfl,
      congrArg WriteResult.state (writeByNumber_setting (ofNumber_number (.outZero n)) (.inl rfl) v)⟩
  · exact ⟨fun o => { o with fullAt := clampTo (plainRange (.outFull n)).1 (plainRange (.outFull n)).2 v },
      fun _ => rfl,
      congrArg WriteResult.state (writeByNumber_setting (ofNumber_number (.outFull n)) (.inl rfl) v)⟩
  · exact ⟨fun o => { o with calLo := clampTo (plainRange (.outCalLo n)).1 (plainRange (.outCalLo n)).2 v },
      fun _ => rfl,
      congrArg WriteResult.state (writeByNumber_setting (ofNumber_number (.outCalLo n)) (.inl rfl) v)⟩
  · exact ⟨fun o => { o with calHi := clampTo (plainRange (.outCalHi n)).1 (plainRange (.outCalHi n)).2 v },
      fun _ => rfl,
      congrArg WriteResult.state (writeByNumber_setting (ofNumber_number (.outCalHi n)) (.inl rfl) v)⟩

end Sys2Proof.Machine

namespace Sys2Proof.Machine

/-! ## The writes of POINT_WRITE together -/

theorem writeByNumber_plain {n : Nat} {p : Point} (hp : Point.ofNumber n = some p) {s : State}
    (hc : p.cls = .setting ∨ (p.cls = .guarded ∧ s.line.mode = .off)) (h : hasOwnRule p = false)
    (v : Int) :
    readPoint (writeByNumber n v s).state p = clampTo (plainRange p).1 (plainRange p).2 v ∧
      ((writeByNumber n v s).status = .ok ↔ (plainRange p).1 ≤ v ∧ v ≤ (plainRange p).2) ∧
      ((writeByNumber n v s).status = .ok ∨ (writeByNumber n v s).status = .clamped) := by
  rw [writeByNumber_setting hp hc, settingWrite_plain h]
  refine ⟨readPoint_storePlain (hc.imp_right And.left) h _ s, ?_, clampStatus_taken _ _⟩
  exact (clampStatus_ok_iff _ _).trans (clampTo_eq_self_iff (plainRange_le p) v)

theorem writeByNumber_state {n : Nat} {p : Point} (hp : Point.ofNumber n = some p) {s : State}
    (hc : p.cls = .setting ∨ (p.cls = .guarded ∧ s.line.mode = .off)) (h : hasOwnRule p = false)
    (v : Int) : (writeByNumber n v s).state =
      storePlain p (max (plainRange p).1 (min v (plainRange p).2)) s := by
  rw [writeByNumber_setting hp hc, settingWrite_clamped h]

theorem hasOwnRule_false {p : Point} (h1 : p ≠ .linkSilence) (h2 : p ≠ .heaterWindow)
    (h3 : ∀ k, p ≠ .loopMode k) (h4 : ∀ k, p ≠ .loopOutput k) (h5 : ∀ k, p ≠ .loopOutMin k)
    (h6 : ∀ k, p ≠ .loopOutMax k) (h7 : ∀ n, p ≠ .outSource n) : hasOwnRule p = false := by
  unfold hasOwnRule
  split
  · exact absurd rfl h1
  · exact absurd rfl h2
  · exact absurd rfl (h5 _)
  · exact absurd rfl (h6 _)
  · exact absurd rfl (h4 _)
  · exact absurd rfl (h3 _)
  · exact absurd rfl (h7 _)
  · rfl

/-- R4: counts_per_mm rescales the count about the position last published. -/
theorem write_countsPerMm {s : State} (hm : s.line.mode = .off) (v : Int) :
    let w := max 1 (min v 1000)
    (writeByNumber 16 v s).state =
      if w = s.line.countsPerMm then s
      else { s with
        line.countsPerMm := w
        line.count := s.line.position * w
        line.sample := s.line.position * w } :=
  writeByNumber_state (ofNumber_number .countsPerMm) (.inr ⟨rfl, hm⟩) rfl v

/-- R75: overheat_margin raises the relative limits that its target exceeds. -/
theorem write_overheatMargin (v : Int) (s : State) :
    let w := max 50 (min v 500)
    let r := (writeByNumber 29 v s).state
    (s.profiles.heat = none → r = { s with loops.overheatMargin := w }) ∧
      ∀ l, s.profiles.heat = some l →
        let target := (fabricOf s l.fabric).tSet + w
        r = { s with
          loops.overheatMargin := w
          loops.zones := tab fun z =>
            { s.loops.zones[z] with
              relLimit := some (match (s.loops.zones[z]).relLimit with
                | none => target
                | some x => max x target) } } := by
  intro w r
  have hr : r = raiseLimits { s with loops.overheatMargin := w } :=
    writeByNumber_state (ofNumber_number .overheatMargin) (.inl rfl) rfl v
  have ht := limitTarget_margin s w
  refine ⟨fun h => ?_, fun l h => ?_⟩
  · rw [hr, raiseLimits_none]
    rw [ht, h]
    rfl
  · rw [h, Option.map_some] at ht
    rw [hr, raiseLimits, ht]
    dsimp only
    congr 3
    funext z
    cases (s.loops.zones[z]).relLimit <;> rfl

theorem write_standbyTemp (v : Int) (s : State) (k : Fin 10) :
    (((writeByNumber 31 v s).state).loops.loops[k]).setpoint =
      if s.line.heatHold = true ∧ k.val < 6 then
        (if s.profiles.heat = none then 0 else max 500 (min v 2300))
      else (s.loops.loops[k]).setpoint := by
  have hr : (writeByNumber 31 v s).state = storePlain .standbyTemp (max 500 (min v 2300)) s :=
    writeByNumber_state (ofNumber_number .standbyTemp) (.inl rfl) rfl v
  rw [hr]
  exact storePlain_standbyTemp _ s k

theorem writeByNumber_outSource (n : Fin 5) (v : Int) (s : State) :
    writeByNumber (310 + 6 * n.val) v s = writeOutSource n v s :=
  writeByNumber_setting (ofNumber_number (.outSource n)) (.inl rfl) v

/-- Settles O23: the class of a point decides first, its rule then; the writes that other values follow. -/
theorem pointWritesJudged : Obligations.PointWritesJudged := by
  unfold Obligations.PointWritesJudged
  refine ⟨fun n v s => ⟨fun h => ?_, fun p hp hc => writeByNumber_live hp hc v s,
      fun p hp hc hm => writeByNumber_guarded hp hc v hm, fun c hc hn => writeByNumber_unforced hc hn v,
      writeByNumber_refusalsKeep n v s, fun p hp hc h1 h2 h3 h4 h5 h6 h7 => ?_⟩,
    fun v s => ⟨writeLinkSilence_taken v s, writeHeaterWindow_taken v s, fun k => ?_⟩,
    fun c v s h => ?_, fun v s => ⟨fun hm => write_countsPerMm hm v, write_overheatMargin v s,
      write_standbyTemp v s⟩, fun n v s => ⟨fun h => ?_, fun q hq hb => ?_, fun fuel => ⟨?_, fun h => ?_⟩,
      fun k h1 h2 q hq hne => ?_⟩⟩
  · rw [writeByNumber, h]
  · exact writeByNumber_plain hp hc (hasOwnRule_false h1 h2 h3 h4 h5 h6 h7) v
  · have e := boundClamp_eq k v
    refine ⟨⟨?_, ?_⟩, fun hm hb => writeLoopOutput_manual hm hb v, fun hm => writeLoopOutput_refused hm v,
      fun h => ?_, fun h hv hb => ?_, fun h hv => writeLoopMode_refused h hv⟩
    · rw [← e]
      exact writeOutMin_loop k v s
    · rw [← e]
      exact writeOutMax_loop k v s
    · rw [writeLoopMode_base h]
      exact overridden_none k s
    · rw [writeLoopMode_override h hv hb]
      refine overridden_some hb ?_
      rcases (loopMode_written v).mpr hv with e | e <;> rw [e] <;> exact nofun
  · obtain ⟨hraw, hscaled, hproc⟩ := writeByNumber_forced h v
    exact ⟨hraw, hscaled, hproc.trans (writeForcedProcessed_taken c v s)⟩
  · rw [writeByNumber_outSource, writeOutSource_refused h]
  · rw [writeByNumber_outSource]
    exact writeOutSource_taken hq (Bool.eq_false_iff.mpr hb)
  · rintro m rfl
    rw [chainLeadsTo_output, Bool.or_eq_true, beq_iff_eq]
  · exact chainLeadsTo_other s n h fuel
  · obtain ⟨f, hf, e⟩ := mappingWrite_state h1 h2 n v s
    have hs : Point.ofInt ((modifyOutput n f s).loops.outputs[n]).source = some q := by
      rw [modifyOutput_same, hf]
      exact hq
    rw [e]
    exact recomputeOutput_counts hs hne

end Sys2Proof.Machine

namespace Sys2Proof.Machine

/-! ## A request that its owner answers -/

theorem takeRequest_answered {f : Frame} {handle : List Byte → State → Answer} {s t : State} {st : Status}
    {items : List Byte} (h : takeable f s = true) (ha : handle f.payload (dequeue s) = ⟨t, st, items⟩) :
    takeRequest f handle s = putReply ⟨f.kind + 0x80, f.tag, replyPayload st items⟩ t := by
  rw [takeRequest_taken handle h, ha]
  rfl

/-! ## The next visit of a pass -/

/-- R27: the next visit is the first channel of the scan range, from a place on, that is not DISABLED. -/
theorem nextVisit_eq_some_iff (s : State) (n : Nat) (c : Fin 16) :
    nextVisit s n = some c ↔
      n ≤ c.val ∧ s.meas.first ≤ c ∧ c ≤ s.meas.last ∧ (s.meas.channels[c]).mode ≠ .disabled ∧
        ∀ d : Fin 16, n ≤ d.val → s.meas.first ≤ d → d < c → (s.meas.channels[d]).mode = .disabled := by
  simp only [nextVisit, ← Fin.find?_eq_find?_finRange, Fin.find?_eq_some_iff, Bool.and_eq_true,
    decide_eq_true_eq, bne_iff_ne, Bool.eq_false_iff, and_assoc, ← Fin.le_def, ne_eq]
  refine and_congr_right fun _ => and_congr_right fun _ => and_congr_right fun hlast =>
    and_congr_right fun _ => ⟨fun h d hn hf hd => ?_, fun h d hd hc => ?_⟩
  · by_contra hm
    exact h d hd ⟨hn, hf, hd.le.trans hlast, hm⟩
  · obtain ⟨hn, hf, -, hm⟩ := hc
    exact hm (h d hn hf hd)

/-- What the next visit depends on, with the state of the scanner. -/
def scanView (s : State) : ScanState × Fin 16 × Fin 16 × (Fin 16 → ChannelMode) :=
  (s.meas.scan, s.meas.first, s.meas.last, fun c => (s.meas.channels[c]).mode)

theorem scanView_eq_iff (s t : State) : scanView t = scanView s ↔
    t.meas.scan = s.meas.scan ∧ t.meas.first = s.meas.first ∧ t.meas.last = s.meas.last ∧
      ∀ c : Fin 16, (t.meas.channels[c]).mode = (s.meas.channels[c]).mode := by
  simp only [scanView, Prod.mk.injEq, funext_iff]

theorem nextVisit_congr {s t : State} (h : scanView t = scanView s) (n : Nat) :
    nextVisit t n = nextVisit s n := by
  obtain ⟨-, hf, hl, hm⟩ := (scanView_eq_iff s t).mp h
  simp only [nextVisit, hf, hl, hm]

theorem scanView_dequeue (s : State) : scanView (dequeue s) = scanView s := by
  rw [scanView, dequeue_meas]
  rfl

/-! ## SCAN_CMD -/

/-- R28: a SCAN_CMD that its owner takes in OFF. -/
theorem takeRow_scanCommand_ok {own : Nat} {tag : Byte} {payload : List Byte}
    {act : List Byte → State → Answer} {s t : State} (h : takeable ⟨0x11, tag, payload⟩ s = true)
    (hm : s.line.mode = .off) (hb : byteAt payload 0 = own) (ho : own < 4)
    (hl : payload.length = scanLength payload) (ha : act payload (dequeue s) = ⟨t, .ok, []⟩) :
    takeRow 4 own ⟨0x11, tag, payload⟩ (scanCommand act) s = putReply ⟨0x91, tag, [0]⟩ t := by
  rw [takeRow_selected _ _ (selectsRow_own hb)]
  refine takeRequest_answered (st := .ok) (items := []) h ?_
  exact (scanCommand_act act hl (by rwa [dequeue_line]) (hb.trans_lt ho)).trans ha

/-- R27, R28: CONTINUOUS and SINGLE start the first pass at once; in SINGLE a pass with no visit ends as it
starts. -/
theorem scanStartAnswer_taken {state : ScanState} (payload : List Byte) {s : State}
    (h : s.meas.scan = .idle) : scanStartAnswer state payload (dequeue s) =
      ⟨commit (dequeue s) { dequeue s with
        meas.scan := (if state = .single ∧ nextVisit s 0 = none then .idle else state)
        meas.converting := nextVisit s 0 }, .ok, []⟩ := by
  have hi : (dequeue s).meas.scan = .idle := by rwa [dequeue_meas]
  have hv : nextVisit { dequeue s with meas.scan := state } 0 = nextVisit s 0 :=
    show nextVisit (dequeue s) 0 = _ from nextVisit_congr (scanView_dequeue s) 0
  rw [scanStartAnswer, if_pos hi, enterScan, startPass, hv]

/-- R29: STOP lets the conversion under way end, and ends a pass that has none. -/
theorem haltScan_eq (s : State) : haltScan s = { s with
    meas.scan := (if s.meas.scan = .halting ∨ (s.meas.scan ≠ .idle ∧ s.meas.converting ≠ none) then
      .halting else .idle) } := by
  obtain ⟨pins, line, ⟨ch, scan, first, last, time, conv, lastCh⟩, rest⟩ := s
  cases scan <;> cases conv <;> rfl

/-- R28, check 4: the range and the sample time that are allowed. -/
theorem scanRange_some {f l t : Byte} (hf : f.toNat < 16) (hl : l.toNat < 16) (hle : f.toNat ≤ l.toNat)
    (h1 : 1 ≤ t.toNat) (h8 : t.toNat ≤ 8) :
    scanRange [3, f, l, t] = some (⟨f.toNat, hf⟩, ⟨l.toNat, hl⟩, t.toNat) := by
  have e1 : byteAt [3, f, l, t] 1 = f.toNat := by simp
  have e2 : byteAt [3, f, l, t] 2 = l.toNat := by simp [byteAt, fieldAt, leValue]
  have e3 : byteAt [3, f, l, t] 3 = t.toNat := by simp [byteAt, fieldAt, leValue]
  unfold scanRange asFin
  rw [e1, e2, e3, dif_pos hf, dif_pos hl]
  exact if_pos ⟨hle, h1, h8⟩

theorem scanConfigureAnswer_taken {payload : List Byte} {s : State} {first last : Fin 16} {time : Nat}
    (h : s.meas.scan = .idle) (hr : scanRange payload = some (first, last, time)) :
    scanConfigureAnswer payload s =
      ⟨commit s { s with meas.first := first, meas.last := last, meas.sampleTime := time }, .ok, []⟩ := by
  rw [scanConfigureAnswer, if_pos h, hr]

/-! ## The cycle period -/

/-- R27, log 28: a cycle starts in CONTINUOUS with no pass under way. -/
theorem scanCycle_starts {s : State} (h : s.meas.scan = .continuous) (hc : s.meas.converting = none) :
    scanCycle s = commit s { s with meas.converting := nextVisit s 0 } := by
  have hs : startPass s = { s with meas.converting := nextVisit s 0 } := by
    have hn : ¬(s.meas.scan = .single ∧ nextVisit s 0 = none) := fun hx => nomatch h.symm.trans hx.1
    rw [startPass, if_neg hn]
  rw [scanCycle, if_pos ⟨h, hc⟩, hs]

theorem scanCycle_else {s : State} (h : s.meas.scan ≠ .continuous) : scanCycle s = s :=
  if_neg fun hx => h hx.1

/-- Settles O11: each SCAN_CMD by the answer of its owner, and the next visit as the first that qualifies. -/
theorem scanOperationsTaken : Obligations.ScanOperationsTaken := by
  unfold Obligations.ScanOperationsTaken
  refine ⟨fun tag s => ⟨fun hm => ⟨fun h hi => ?_, fun h hi => ?_, fun h => ?_,
      fun f l t h hi hfl hl h1 h8 hf => ?_⟩,
    fun hr => ⟨fun h hc => ?_, fun h => ?_⟩⟩, nextVisit_eq_some_iff⟩
  · refine congrArg Host.Outcome.next (takeRow_scanCommand_ok (own := 0) h hm rfl (by decide) rfl ?_)
    exact scanStartAnswer_taken [0] hi
  · refine congrArg Host.Outcome.next (takeRow_scanCommand_ok (own := 1) h hm rfl (by decide) rfl ?_)
    refine (scanStartAnswer_taken (state := .single) [1] hi).trans ?_
    simp only [true_and]
  · refine congrArg Host.Outcome.next (takeRow_scanCommand_ok (own := 2) h hm rfl (by decide) rfl ?_)
    rw [scanStopAnswer, haltScan_eq, dequeue_meas]
  · refine congrArg Host.Outcome.next (takeRow_scanCommand_ok (own := 3) h hm (byteAt_zero 3 _)
      (by decide) (scanLength_configure f l t) ?_)
    exact scanConfigureAnswer_taken (by rwa [dequeue_meas]) (scanRange_some hf hl hfl h1 h8)
  · exact congrArg Host.Outcome.next ((whenRuns_running hr _).trans (scanCycle_starts h hc))
  · exact congrArg Host.Outcome.next ((whenRuns_running hr _).trans (scanCycle_else h))

end Sys2Proof.Machine

namespace Sys2Proof.Machine

/-! ## The conversion chain -/

/-- R34, R39: does the value restart the averaging? -/
def restartsAt (c : Channel) (v : Int) : Bool := c.stale || leavesWindow c v

theorem restartsAt_iff (c : Channel) (v : Int) : restartsAt c v = true ↔
    c.stale = true ∨ (0 < c.avgWindow ∧ c.ring ≠ [] ∧ c.avgWindow < |v - meanOf c.ring|) := by
  simp [restartsAt, leavesWindow, and_assoc]

/-- R34, R35: the value enters the ring, which a restart has emptied, and the last second with it. -/
theorem averaged_eq (c : Channel) (v : Int) : averaged c v = { c with
    ring := pushValue c.avgN.toNat (if restartsAt c v = true then [] else c.ring) v
    lastSecond := if restartsAt c v = true then [] else c.lastSecond } := by
  unfold averaged restartsAt
  cases hs : c.stale
  · cases hw : leavesWindow c v <;> simp [hw, hs, restartAveraging]
  · simp [hs, restartAveraging]

theorem pushValue_nil {n : Nat} (h : 1 ≤ n) (v : Int) : pushValue n [] v = [v] := by
  have h1 : 1 - n = 0 := by omega
  simp [pushValue, h1]

theorem pushValue_eq (n : Nat) (l : List Int) (v : Int) :
    pushValue n l v = (l ++ [v]).drop (l.length + 1 - n) := by
  rw [pushValue, List.length_append, List.length_singleton]

/-- R40: a capture needs a whole second without a restart. -/
theorem captures_averaged_iff (c : Channel) (speedZero : Bool) (v a : Int) :
    captures speedZero (averaged c v) a = true ↔
      speedZero = true ∧ c.captureBand ≠ 255 ∧ |a - c.zeroCorr| ≤ c.captureBand ∧
        ¬restartsAt c v = true ∧ c.lastSecond.length = 10 ∧ |a - c.lastSecond.headD 0| ≤ c.motionBand := by
  rw [averaged_eq]
  by_cases hr : restartsAt c v = true <;>
    simp [captures, hr, Config.lastSecondCapacity, and_assoc]

theorem zeroed_eq (speedZero : Bool) (c : Channel) (a : Int) : zeroed speedZero c a = { c with
    zeroCorr := if captures speedZero c a = true then capturedZero c a else c.zeroCorr
    processed := clamp32 (a - if captures speedZero c a = true then capturedZero c a else c.zeroCorr)
    lastSecond := pushValue Config.lastSecondCapacity c.lastSecond a } := by
  unfold zeroed
  cases captures speedZero c a <;> rfl

/-- R36, R40: a good conversion of a FORCE channel. -/
theorem goodConversion_force (speedZero : Bool) (c : Channel) (r : Int) :
    goodConversion true speedZero c r =
      { zeroed speedZero (averaged c (scaledValue c r)) (meanOf (averaged c (scaledValue c r)).ring) with
        raw := r
        scaled := scaledValue c r
        status := .ok
        stale := false } := rfl

theorem goodConversion_ring (force speedZero : Bool) (c : Channel) (r : Int) :
    (goodConversion force speedZero c r).ring = (averaged c (scaledValue c r)).ring := by
  cases force
  · rfl
  · rw [goodConversion_force, zeroed_eq]

theorem goodConversion_measured (force speedZero : Bool) (c : Channel) (r : Int) :
    let g := goodConversion force speedZero c r
    g.raw = r ∧ g.scaled = scaledValue c r ∧ g.status = .ok ∧ g.stale = false :=
  ⟨rfl, rfl, rfl, rfl⟩

/-- A conversion leaves the mode and the settings of the channel alone. -/
theorem goodConversion_settings (force speedZero : Bool) (c : Channel) (r : Int) :
    let g := goodConversion force speedZero c r
    g.mode = c.mode ∧ g.trim = c.trim ∧ g.scale = c.scale ∧ g.offset = c.offset ∧ g.avgN = c.avgN ∧
      g.avgWindow = c.avgWindow ∧ g.captureBand = c.captureBand ∧ g.motionBand = c.motionBand ∧
      g.aperture = c.aperture := by
  cases force
  · rw [goodConversion, averaged_eq]
    exact ⟨rfl, rfl, rfl, rfl, rfl, rfl, rfl, rfl, rfl⟩
  · rw [goodConversion_force, zeroed_eq, averaged_eq]
    exact ⟨rfl, rfl, rfl, rfl, rfl, rfl, rfl, rfl, rfl⟩

/-- R36: a channel that is not of the FORCE kind shows the mean of its ring. -/
theorem goodConversion_plain (speedZero : Bool) (c : Channel) (r : Int) :
    let g := goodConversion false speedZero c r
    g.processed = meanOf g.ring ∧ g.zeroCorr = c.zeroCorr := by
  dsimp only
  rw [goodConversion, averaged_eq]
  exact ⟨rfl, rfl⟩

/-- R36, R40: what a FORCE channel makes of the mean `a` of its ring. -/
theorem goodConversion_zero (speedZero : Bool) (c : Channel) (r : Int) :
    let g := goodConversion true speedZero c r
    let m := averaged c (scaledValue c r)
    let a := meanOf g.ring
    g.processed = clamp32 (a - g.zeroCorr) ∧
      g.lastSecond = pushValue Config.lastSecondCapacity
        (if restartsAt c (scaledValue c r) = true then [] else c.lastSecond) a ∧
      g.zeroCorr = if captures speedZero m a = true then capturedZero c a else c.zeroCorr := by
  have hz : ∀ a, capturedZero (averaged c (scaledValue c r)) a = capturedZero c a := by
    intro a
    rw [averaged_eq]
    rfl
  have hc : (averaged c (scaledValue c r)).zeroCorr = c.zeroCorr := by rw [averaged_eq]
  have hl : (averaged c (scaledValue c r)).lastSecond =
      if restartsAt c (scaledValue c r) = true then [] else c.lastSecond := by rw [averaged_eq]
  dsimp only
  rw [goodConversion_ring, goodConversion_force, zeroed_eq, hz, hc, hl]
  exact ⟨rfl, rfl, rfl⟩

/-- R40: ZERO_LIMIT is raised where a capture meets the aperture. -/
theorem raisesZeroLimit_iff (force speedZero : Bool) (c : Channel) (r : Int) :
    let a := meanOf (goodConversion force speedZero c r).ring
    raisesZeroLimit force speedZero c r = true ↔
      force = true ∧ captures speedZero (averaged c (scaledValue c r)) a = true ∧ c.aperture < |a| := by
  have ha : (averaged c (scaledValue c r)).aperture = c.aperture := by rw [averaged_eq]
  simp only [raisesZeroLimit, zeroLimited, Bool.and_eq_true, decide_eq_true_eq, ha, goodConversion_ring]

/-- Settles O12: the record by the averaging and the zero correction, each with its one condition. -/
theorem conversionChain : Obligations.ConversionChain := by
  unfold Obligations.ConversionChain
  intro force speedZero c r h g v restart a
  have hn : 1 ≤ c.avgN.toNat := by omega
  have hr : restartsAt c (scaledValue c r) = true ↔ restart := restartsAt_iff c v
  have hring : g.ring = _ := goodConversion_ring force speedZero c r
  have hcap := captures_averaged_iff c speedZero (scaledValue c r) a
  have hlimit := raisesZeroLimit_iff force speedZero c r
  obtain ⟨hraw, hscaled, hstatus, hstale⟩ := goodConversion_measured force speedZero c r
  obtain ⟨hmode, hsettings⟩ := goodConversion_settings force speedZero c r
  rw [averaged_eq] at hring
  rw [hr] at hcap
  refine ⟨hraw, hscaled, hstatus, hstale, hmode, fun hx => ?_, fun hx => ?_, fun hf => ?_, fun hf => ?_, ?_,
    hsettings⟩
  · rw [if_pos (hr.mpr hx)] at hring
    exact hring.trans (pushValue_nil hn v)
  · rw [if_neg (mt hr.mp hx)] at hring
    exact hring.trans (pushValue_eq _ _ v)
  · subst hf
    exact goodConversion_plain speedZero c r
  · subst hf
    obtain ⟨hproc, hlast, hzero⟩ := goodConversion_zero speedZero c r
    refine ⟨hproc, fun hx => ?_, fun hx => ?_, fun hx => ?_, fun hx => ?_⟩
    · rw [if_pos (hr.mpr hx)] at hlast
      exact hlast.trans (pushValue_nil (by decide) a)
    · rw [if_neg (mt hr.mp hx)] at hlast
      exact hlast.trans (pushValue_eq _ _ a)
    · exact hzero.trans (if_pos (hcap.mpr hx))
    · exact hzero.trans (if_neg (mt hcap.mp hx))
  · refine hlimit.trans (and_congr_right fun _ => (and_congr_left' hcap).trans ?_)
    simp only [and_assoc]
    exact Iff.rfl

end Sys2Proof.Machine

namespace Sys2Proof.Machine

/-! ## What an arrival leaves of the scanner -/

theorem ReactionFrame.scanView {s t : State} (f : ReactionFrame s t) : scanView t = scanView s :=
  (scanView_eq_iff s t).mpr ⟨f.scan, f.first, f.last, fun c => (f.channels c).1⟩

theorem scanView_commit (old s : State) : scanView (commit old s) = scanView s :=
  (commit_frame old s).scanView

theorem scanView_raiseEvent (k : EventKind) (d : Nat) (s : State) :
    scanView (raiseEvent k d s) = scanView s := (raiseEvent_frame k d s).scanView

theorem scanView_addDose (z : Fin 6) (temp : Int) (id : Nat) (s : State) :
    scanView (addDose z temp id s) = scanView s := by
  unfold addDose
  split
  · rfl
  · dsimp only
    split
    · exact scanView_raiseEvent _ _ _
    · rfl

theorem scanView_checkScorch (id : Nat) (s : State) : scanView (checkScorch id s) = scanView s := by
  unfold checkScorch
  split
  · rfl
  · dsimp only
    split
    · exact scanView_raiseEvent _ _ _
    · rfl

theorem scanView_integrateBand (z : Fin 6) (temp : Int) (held : Bool) (s : State) (id : Nat) :
    scanView (integrateBand z temp held s id) = scanView s := by
  unfold integrateBand
  dsimp only
  split
  · exact (scanView_checkScorch id _).trans (scanView_addDose z temp id s)
  · rfl

theorem scanView_integrateDose (z : Fin 6) (temp : Int) (held : Bool) (s : State) :
    scanView (integrateDose z temp held s) = scanView s :=
  foldl_kept (P := fun t => scanView t = scanView s) _
    (fun t id h => (scanView_integrateBand z temp held t id).trans h) _ s rfl

theorem scanView_computeIfAuto (k : Fin 10) (v : Int) (s : State) :
    scanView (computeIfAuto k v s) = scanView s := by
  unfold computeIfAuto
  split <;> rfl

theorem scanView_heatArrival (z : Fin 6) (v : Int) (s : State) :
    scanView (heatArrival z v s) = scanView s := by
  unfold heatArrival
  dsimp only
  split
  · split
    · exact (scanView_commit _ _).trans (scanView_computeIfAuto _ v _)
    · exact scanView_commit _ _
  · split
    · exact (scanView_commit _ _).trans (record_frame _ _ _).scanView
    · exact (scanView_commit _ _).trans (scanView_computeIfAuto _ v _)

theorem scanView_webLossStep (t : Fin 4) (v : Int) (s : State) :
    scanView (webLossStep t v s) = scanView s := by
  unfold webLossStep
  split <;> rfl

theorem scanView_tensionArrival (t : Fin 4) (v : Int) (s : State) :
    scanView (tensionArrival t v s) = scanView s :=
  calc scanView (tensionArrival t v s)
    _ = _ := scanView_commit _ _
    _ = _ := scanView_computeIfAuto _ v _
    _ = _ := scanView_webLossStep t v _
    _ = scanView s := (refreshLoop_frame _ (spanLoop t)).scanView

theorem scanView_loopStale (k : Fin 10) (s : State) : scanView (loopStale k s) = scanView s :=
  (scanView_commit s _).trans (refreshLoop_frame (staled k s) k).scanView

theorem scanView_checkDwell (s : State) : scanView (checkDwell s) = scanView s :=
  (checkDwell_frame s).scanView

theorem scanView_freshArrival (c : Fin 16) (v : Int) (s : State) :
    scanView (freshArrival c v s) = scanView s := by
  unfold freshArrival
  split
  · exact (scanView_checkDwell _).trans
      ((scanView_integrateDose _ v false _).trans (scanView_heatArrival _ v s))
  · split
    · exact scanView_tensionArrival _ v s
    · rfl

theorem scanView_heldArrival (c : Fin 16) (v : Int) (s : State) :
    scanView (heldArrival c v s) = scanView s := by
  unfold heldArrival
  split
  · rfl
  · dsimp only
    split
    · exact (scanView_checkDwell _).trans
        ((scanView_integrateDose _ v true _).trans (scanView_loopStale _ s))
    · exact scanView_loopStale _ s

/-! ## The end of a visit -/

/-- R27, R29: the state of the scanner after the conversion of channel c, and its next conversion. -/
def afterVisit (c : Fin 16) (s : State) : ScanState × Option (Fin 16) :=
  match s.meas.scan with
  | .continuous => (.continuous, nextVisit s (c.val + 1))
  | .single => (if nextVisit s (c.val + 1) = none then .idle else .single, nextVisit s (c.val + 1))
  | .idle | .halting => (.idle, none)

theorem afterVisit_congr {s t : State} (h : scanView t = scanView s) (c : Fin 16) :
    afterVisit c t = afterVisit c s := by
  simp only [afterVisit, nextVisit_congr h, ((scanView_eq_iff s t).mp h).1]

theorem nextConversion_eq (c : Fin 16) (s : State) : nextConversion c s =
    { s with meas.scan := (afterVisit c s).1, meas.converting := (afterVisit c s).2 } := by
  unfold nextConversion afterVisit
  cases h : s.meas.scan
  case single => cases nextVisit s (c.val + 1) <;> simp [h]
  case halting => rfl
  all_goals simp only [h]

/-- R27, log 47: the visit ends with the scanner that the conversion found. -/
theorem visitDone_eq (c : Fin 16) {s u : State} (h : scanView u = scanView s) :
    visitDone c u = commit u { u with
      meas.scan := (afterVisit c s).1
      meas.converting := (afterVisit c s).2
      meas.lastChannel := some c } := by
  rw [visitDone, nextConversion_eq, afterVisit_congr h]

/-! ## A completed conversion -/

theorem exec_conversionComplete {s : State} (hr : s.runs = true) (raw : BitVec 16) :
    exec (.conversionComplete raw) s = .next (completeConversion raw.toNat s) :=
  congrArg Host.Outcome.next (whenRuns_running hr _)

theorem completeConversion_normal {s : State} {c : Fin 16} (hc : s.meas.converting = some c)
    (hm : (s.meas.channels[c]).mode = .normal) (raw : Int) :
    completeConversion raw s = normalConversion c raw s := by
  rw [completeConversion, hc]
  dsimp only
  rw [hm]

theorem completeConversion_forced {s : State} {c : Fin 16} (hc : s.meas.converting = some c)
    (hm : (s.meas.channels[c]).mode = .forced) (raw : Int) :
    completeConversion raw s = forcedConversion c s := by
  rw [completeConversion, hc]
  dsimp only
  rw [hm]

theorem completeConversion_disabled {s : State} {c : Fin 16} (hc : s.meas.converting = some c)
    (hm : (s.meas.channels[c]).mode = .disabled) (raw : Int) :
    completeConversion raw s = disabledConversion c s := by
  rw [completeConversion, hc]
  dsimp only
  rw [hm]

/-- R31: between the limits the sensor is in order. -/
theorem detect_ok {r : Int} (h1 : 35 < r) (h2 : r < 65500) : detect r = .ok := by
  have hs : ¬r ≤ Config.shortLimit := not_le.mpr h1
  have ho : ¬Config.openLimit ≤ r := not_le.mpr h2
  rw [detect, if_neg ho, if_neg hs]

theorem detect_broken {r : Int} (h : r ≤ 35 ∨ 65500 ≤ r) :
    detect r = if r ≤ 35 then .shorted else .openCircuit := by
  have hs : Config.shortLimit = 35 := rfl
  have ho : Config.openLimit = 65500 := rfl
  rw [detect, hs, ho]
  rcases h with h | h
  · rw [if_neg (by omega), if_pos h, if_pos h]
  · rw [if_pos h, if_neg (by omega)]

theorem detect_broken_ne {r : Int} (h : r ≤ 35 ∨ 65500 ≤ r) : detect r ≠ .ok := by
  rw [detect_broken h]
  split <;> exact nofun

theorem modifyChannel_same (c : Fin 16) (f : Channel → Channel) (s : State) :
    (modifyChannel c f s).meas.channels[c] = f s.meas.channels[c] := by
  simp [modifyChannel_getElem]

/-- A record that keeps its mode leaves the view of the scanner as it was. -/
theorem scanView_modifyChannel {c : Fin 16} {f : Channel → Channel} {s : State}
    (h : (f s.meas.channels[c]).mode = (s.meas.channels[c]).mode) :
    scanView (modifyChannel c f s) = scanView s := by
  refine (scanView_eq_iff _ _).mpr ⟨rfl, rfl, rfl, fun d => ?_⟩
  by_cases hd : d = c
  · subst hd
    rw [modifyChannel_same, h]
  · have hv : d.val ≠ c.val := fun e => hd (Fin.ext e)
    simp [modifyChannel_getElem, hv]

theorem ReactionFrame.ite {p : Prop} [Decidable p] {s t u : State} (h : ReactionFrame s t)
    (g : ReactionFrame s u) : ReactionFrame s (if p then t else u) := by
  split
  · exact h
  · exact g

/-- R33 to R37, R40: a good conversion. -/
theorem normalConversion_good {raw : Int} (h : detect raw = .ok) (c : Fin 16) (s : State) :
    let good := fun x => goodConversion (isForceChannel c) (s.line.speed == 0) x raw
    let limits := raisesZeroLimit (isForceChannel c) (s.line.speed == 0) s.meas.channels[c] raw
    let t := modifyChannel c good s
    normalConversion c raw s =
      visitDone c (freshArrival c (good s.meas.channels[c]).processed
        (commitArrival c s (if limits = true then record .zeroLimit c.val t else t))) := by
  intro good limits t
  have f : ReactionFrame t (if limits = true then record .zeroLimit c.val t else t) :=
    .ite (record_frame _ _ t) (.refl t)
  obtain ⟨-, -, -, -, -, hp, -⟩ := f.channels c
  rw [modifyChannel_same] at hp
  rw [normalConversion, h, ← hp]

/-- R31, R32: a conversion that finds the sensor broken. -/
theorem normalConversion_broken {raw : Int} {status : ChannelStatus} (h : detect raw = status)
    (hs : status ≠ .ok) (c : Fin 16) (s : State) :
    let t := modifyChannel c (fun x => brokenConversion x status raw) s
    normalConversion c raw s =
      visitDone c (heldArrival c (s.meas.channels[c]).processed (commitArrival c s
        (if (s.meas.channels[c]).status = status then t else record .sensorFault c.val t))) := by
  subst h
  rw [normalConversion]
  cases hd : detect raw
  · exact absurd hd hs
  all_goals rfl

theorem scanView_fresh (c : Fin 16) (v : Int) (old s : State) :
    scanView (freshArrival c v (commitArrival c old s)) = scanView s :=
  (scanView_freshArrival c v _).trans (commitArrival_frame c old s).scanView

theorem scanView_held (c : Fin 16) (v : Int) (old s : State) :
    scanView (heldArrival c v (commitArrival c old s)) = scanView s :=
  (scanView_heldArrival c v _).trans (commitArrival_frame c old s).scanView

/-- Settles O13: the four conversions, each of which leaves the scanner to the end of the visit. -/
theorem conversionCompletes : Obligations.ConversionCompletes := by
  unfold Obligations.ConversionCompletes
  intro raw s c hr hc ch
  have he := exec_conversionComplete hr raw
  refine ⟨(afterVisit c s).1, (afterVisit c s).2, fun h => ?_, fun h => ?_, fun h => ?_, fun hm h1 h2 => ?_,
    fun hm hb => ?_, fun hm => ?_, fun hm => ?_⟩
  · rw [afterVisit, h]
    exact ⟨rfl, rfl⟩
  · rw [afterVisit, h]
    exact ⟨rfl, rfl⟩
  · rw [afterVisit, h]
    exact ⟨rfl, rfl⟩
  · have hd : detect raw.toNat = .ok := detect_ok (by exact_mod_cast h1) (by exact_mod_cast h2)
    rw [he, completeConversion_normal hc hm, normalConversion_good hd]
    refine congrArg Host.Outcome.next (visitDone_eq c ?_)
    rw [scanView_fresh, (ReactionFrame.ite (record_frame ..) (.refl _)).scanView]
    exact scanView_modifyChannel (goodConversion_settings _ _ _ _).1
  · have hb' : (raw.toNat : Int) ≤ 35 ∨ 65500 ≤ (raw.toNat : Int) := by exact_mod_cast hb
    have hd : detect raw.toNat = if raw.toNat ≤ 35 then .shorted else .openCircuit := by
      rw [detect_broken hb']
      norm_cast
    rw [he, completeConversion_normal hc hm, normalConversion_broken hd (hd ▸ detect_broken_ne hb')]
    refine congrArg Host.Outcome.next (visitDone_eq c ?_)
    rw [scanView_held, (ReactionFrame.ite (.refl _) (record_frame ..)).scanView]
    exact scanView_modifyChannel rfl
  · rw [he, completeConversion_forced hc hm]
    exact congrArg Host.Outcome.next (visitDone_eq c (scanView_fresh c _ s s))
  · rw [he, completeConversion_disabled hc hm]
    exact congrArg Host.Outcome.next (visitDone_eq c rfl)

end Sys2Proof.Machine

namespace Sys2Proof.Machine

/-! ## The silence timing -/

/-- R38: the silence timing sets the stale mark of a NORMAL channel that has none. -/
theorem expireSilence_eq {c : Fin 16} {s : State} (hm : (s.meas.channels[c]).mode = .normal)
    (hs : (s.meas.channels[c]).stale = false) : expireSilence c s =
      staleNotice c (commit s (modifyChannel c (fun x => { x with stale := true }) s)) :=
  if_pos (by rw [Channel.silenceRuns, hm, hs]; rfl)

/-! ## CHANNEL_MODE -/

theorem modifyChannel_dequeue (c : Fin 16) (f : Channel → Channel) (s : State) :
    modifyChannel c f (dequeue s) =
      { dequeue s with meas.channels := upd s.meas.channels c (f s.meas.channels[c]) } := by
  simp only [modifyChannel, dequeue_meas]

theorem channelModeAllowed_iff (m : LineMode) : channelModeAllowed m = true ↔
    m = .off ∨ m = .warming ∨ m = .ready ∨ m = .safe := by
  cases m <;> simp [channelModeAllowed]

theorem channelModeAllowed_false {m : LineMode} (h : m = .running ∨ m = .stopping ∨ m = .threading) :
    channelModeAllowed m = false := by
  rcases h with rfl | rfl | rfl <;> rfl

theorem ChannelMode.ofCode_code (m : ChannelMode) : ChannelMode.ofCode m.code = some m := by
  cases m <;> rfl

theorem ChannelMode.ofCode_none {n : Nat} (h : 2 < n) : ChannelMode.ofCode n = none := by
  obtain ⟨k, rfl⟩ : ∃ k, n = k + 3 := ⟨n - 3, by omega⟩
  rfl

/-- The byte of a channel number spells the number. -/
theorem toNat_channelByte (c : Fin 16) : (BitVec.ofNat 8 c.val : Byte).toNat = c.val := by
  rw [BitVec.toNat_ofNat]
  omega

theorem channelModeAnswer_mode {n m : Byte} {s : State} (h : channelModeAllowed s.line.mode = false) :
    channelModeAnswer [n, m] s = refuse .mode s :=
  (withLength_eq rfl s _).trans (if_pos h)

/-- R42: the checks of length and line mode are passed, and the two numbers decide. -/
theorem channelModeAnswer_range {n m : Byte} {s : State} (h : channelModeAllowed s.line.mode = true)
    (hr : 15 < n.toNat ∨ 2 < m.toNat) : channelModeAnswer [n, m] s = refuse .range s := by
  rw [channelModeAnswer, withLength_eq (n := 2) rfl, if_neg (by rw [h]; decide), byteAt_succ, byteAt_zero,
    byteAt_zero]
  rcases hr with hr | hr
  · rw [asFin_none hr]
  · rw [ChannelMode.ofCode_none hr]
    cases asFin 16 n.toNat <;> rfl

/-- R42, R43: a channel number and a mode that are allowed. -/
theorem channelModeAnswer_taken {c : Fin 16} {mode : ChannelMode} {m : Byte} {s : State}
    (h : channelModeAllowed s.line.mode = true) (hm : m.toNat = mode.code) :
    channelModeAnswer [BitVec.ofNat 8 c.val, m] s =
      if (s.meas.channels[c]).mode = mode then ⟨s, .ok, []⟩ else ⟨changeChannelMode c mode s, .ok, []⟩ := by
  rw [channelModeAnswer, withLength_eq (n := 2) rfl, if_neg (by rw [h]; decide), byteAt_succ, byteAt_zero,
    byteAt_zero, toNat_channelByte, asFin_val, hm, ChannelMode.ofCode_code]

/-- R43: the state that a change of channel mode leaves. -/
theorem changeChannelMode_dequeue {mode : ChannelMode} (h : mode ≠ .disabled) (c : Fin 16) (s : State) :
    changeChannelMode c mode (dequeue s) = commit (dequeue s) { dequeue s with
      meas.channels := upd s.meas.channels c (enterChannelMode mode s.meas.channels[c]) } := by
  rw [changeChannelMode, modifyChannel_dequeue]
  exact if_neg h

/-- R38, R43: a channel that is disabled tells its consumers so. -/
theorem changeChannelMode_disabled_dequeue (c : Fin 16) (s : State) :
    changeChannelMode c .disabled (dequeue s) = staleNotice c (commit (dequeue s) { dequeue s with
      meas.channels := upd s.meas.channels c (enterChannelMode .disabled s.meas.channels[c]) }) := by
  rw [changeChannelMode, modifyChannel_dequeue]
  exact if_pos rfl

/-- R42, R43: CHANNEL_MODE taken with a mode that the channel does not have. -/
theorem exec_channelMode_changes {tag m : Byte} {c : Fin 16} {mode : ChannelMode} {s : State}
    (h : takeable ⟨0x12, tag, [BitVec.ofNat 8 c.val, m]⟩ s = true)
    (ha : channelModeAllowed s.line.mode = true) (hm : m.toNat = mode.code)
    (hc : (s.meas.channels[c]).mode ≠ mode) :
    exec (.channelMode tag [BitVec.ofNat 8 c.val, m]) s =
      .next (putReply ⟨0x92, tag, [0]⟩ (changeChannelMode c mode (dequeue s))) := by
  refine congrArg Host.Outcome.next (takeRequest_answered (st := .ok) (items := []) h ?_)
  refine (channelModeAnswer_taken (by rwa [dequeue_line]) hm).trans (if_neg ?_)
  rwa [dequeue_meas]

theorem exec_channelMode_kept {tag m : Byte} {c : Fin 16} {s : State}
    (h : takeable ⟨0x12, tag, [BitVec.ofNat 8 c.val, m]⟩ s = true)
    (ha : channelModeAllowed s.line.mode = true) (hm : m.toNat = (s.meas.channels[c]).mode.code) :
    exec (.channelMode tag [BitVec.ofNat 8 c.val, m]) s =
      .next (putReply ⟨0x92, tag, [0]⟩ (dequeue s)) := by
  refine congrArg Host.Outcome.next (takeRequest_answered (st := .ok) (items := []) h ?_)
  refine (channelModeAnswer_taken (by rwa [dequeue_line]) hm).trans (if_pos ?_)
  rw [dequeue_meas]

/-- Settles O14: the stale mark of the silence timing, and CHANNEL_MODE by its checks. -/
theorem silenceAndChannelModes : Obligations.SilenceAndChannelModes := by
  unfold Obligations.SilenceAndChannelModes
  refine ⟨fun c s hr hm hs => ?_, fun tag c s => ⟨fun h => ?_, fun h n m ht => ?_⟩⟩
  · exact congrArg Host.Outcome.next ((whenRuns_running hr _).trans (expireSilence_eq hm hs))
  · have ha : channelModeAllowed s.line.mode = true := (channelModeAllowed_iff _).mpr h
    refine ⟨fun ht hc => ?_, fun ht hc => ?_, fun ht hc => ?_, fun m hm ht => exec_channelMode_kept ht ha hm,
      fun n m hr ht => ?_⟩
    · rw [exec_channelMode_changes ht ha rfl hc, changeChannelMode_dequeue (mode := .normal) nofun,
        enterChannelMode, restartAveraging]
    · rw [exec_channelMode_changes ht ha rfl hc, changeChannelMode_dequeue (mode := .forced) nofun,
        enterChannelMode]
    · rw [exec_channelMode_changes ht ha rfl hc, changeChannelMode_disabled_dequeue, enterChannelMode]
    · exact congrArg Host.Outcome.next (takeRequest_answered ht
        (channelModeAnswer_range (by rwa [dequeue_line]) hr))
  · exact congrArg Host.Outcome.next (takeRequest_answered ht
      (channelModeAnswer_mode (by rw [dequeue_line]; exact channelModeAllowed_false h)))

/-! ## ZERO -/

theorem isForceChannel_false {c : Fin 16} (h : c.val < 6 ∨ 9 < c.val) : isForceChannel c = false := by
  rw [← Bool.not_eq_true, isForceChannel_iff]
  omega

/-- R41, check 1: no FORCE channel has the number. -/
theorem zeroAnswer_range {n : Byte} (h : n.toNat < 6 ∨ 9 < n.toNat) (s : State) :
    zeroAnswer [n] s = refuse .range s := by
  rw [zeroAnswer, withLength_eq (n := 1) rfl, byteAt_zero]
  by_cases hn : n.toNat < 16
  · rw [asFin, dif_pos hn]
    exact if_pos (isForceChannel_false h)
  · rw [asFin, dif_neg hn]

/-- R41: checks 2 to 4 for a FORCE channel, and the capture. -/
theorem zeroAnswer_force {n : Byte} {c : Fin 16} (hn : n.toNat = c.val) (h : 6 ≤ c.val) (h9 : c.val ≤ 9)
    (s : State) : zeroAnswer [n] s =
      let ch := s.meas.channels[c]
      if ch.mode ≠ .normal ∨ s.line.speed ≠ 0 then refuse .mode s
      else if ch.stale = true ∨ ch.ring = [] then refuse .state s
      else if ch.aperture < |meanOf ch.ring| then refuse .range s
      else ⟨commit s (modifyChannel c (fun x => { x with zeroCorr := meanOf ch.ring }) s), .ok, []⟩ := by
  have hf : ¬isForceChannel c = false := by
    rw [Bool.not_eq_false, isForceChannel_iff]
    exact ⟨h, h9⟩
  rw [zeroAnswer, withLength_eq (n := 1) rfl, byteAt_zero, hn, asFin_val]
  exact if_neg hf

/-- Settles O15: the checks of ZERO in their order, and the capture. -/
theorem zeroTaken : Obligations.ZeroTaken := by
  unfold Obligations.ZeroTaken
  refine fun tag n s ht => ⟨fun h => ?_, fun c hn h6 h9 => ?_⟩
  · exact congrArg Host.Outcome.next (takeRequest_answered ht (zeroAnswer_range h _))
  · have ha := zeroAnswer_force hn h6 h9 (dequeue s)
    dsimp only at ha
    rw [modifyChannel_dequeue, dequeue_meas, dequeue_line] at ha
    intro ch a
    have answered {t : State} {st : Status} (e : zeroAnswer [n] (dequeue s) = ⟨t, st, []⟩) :
        exec (.zero tag [n]) s = .next (putReply ⟨0x93, tag, replyPayload st []⟩ t) :=
      congrArg Host.Outcome.next (takeRequest_answered ht e)
    by_cases h2 : ch.mode ≠ .normal ∨ s.line.speed ≠ 0
    · rw [if_pos h2]
      exact answered (ha.trans (if_pos h2))
    rw [if_neg h2]
    replace ha := ha.trans (if_neg h2)
    by_cases h3 : ch.stale = true ∨ ch.ring = []
    · rw [if_pos h3]
      exact answered (ha.trans (if_pos h3))
    rw [if_neg h3]
    replace ha := ha.trans (if_neg h3)
    by_cases h4 : ch.aperture < |a|
    · rw [if_pos h4]
      exact answered (ha.trans (if_pos h4))
    · rw [if_neg h4]
      have hok := answered (ha.trans (if_neg h4))
      rw [replyPayload_ok] at hok
      exact hok

end Sys2Proof.Machine

namespace Sys2Proof.Machine

/-! ## Fields and pieces of a payload -/

theorem leBytes_length (n v : Nat) : (leBytes n v).length = n := by
  induction n generalizing v with
  | zero => rfl
  | succ n ih => rw [leBytes, List.length_cons, ih]

/-- R193: the bytes of a field spell its value. -/
theorem leValue_leBytes (n v : Nat) : leValue (leBytes n v) = v % 256 ^ n := by
  induction n generalizing v with
  | zero => rw [leBytes, leValue, Nat.pow_zero, Nat.mod_one]
  | succ n ih =>
    rw [leBytes, leValue, ih, BitVec.toNat_ofNat, pow_succ' 256 n, Nat.mod_mul]

/-- Items of one length, laid one after another, are cut where they were joined. -/
theorem pieces_flatMap {α : Type} {n : Nat} {f : α → List Byte} (hf : ∀ a, (f a).length = n) (l : List α) :
    pieces n l.length (l.flatMap f) = l.map f := by
  induction l with
  | nil => rfl
  | cons a l ih =>
    have hn : ¬(f a ++ l.flatMap f).length < n := by
      rw [List.length_append, hf]
      omega
    rw [List.flatMap_cons, List.length_cons, pieces, if_neg hn, List.take_left' (hf a),
      List.drop_left' (hf a), ih, List.map_cons]

theorem length_flatMap_items {α : Type} {n : Nat} {f : α → List Byte} (hf : ∀ a, (f a).length = n)
    (l : List α) : (l.flatMap f).length = l.length * n := by
  simp [List.length_flatMap, hf]

/-- R53, R54: the payloads of whole items, at least one and not too many. -/
theorem holdsItems_iff {size : Nat} (hs : 0 < size) (most : Nat) (payload : List Byte) :
    holdsItems size most payload = true ↔ ∃ k, payload.length = k * size ∧ 1 ≤ k ∧ k ≤ most := by
  simp only [holdsItems, Bool.and_eq_true, decide_eq_true_eq, and_assoc]
  refine ⟨fun ⟨h0, h1, h2⟩ => ⟨_, (Nat.div_mul_cancel (Nat.dvd_of_mod_eq_zero h0)).symm, h1, h2⟩, ?_⟩
  rintro ⟨k, hk, h1, h2⟩
  rw [hk, Nat.mul_mod_left, Nat.mul_div_cancel k hs]
  exact ⟨rfl, h1, h2⟩

/-! ## POINT_READ -/

theorem listedNumbers_flatMap {numbers : List Nat} (h : ∀ n ∈ numbers, n < 65536) :
    listedNumbers (numbers.flatMap (leBytes 2)) = numbers := by
  have hl : ∀ n, (leBytes 2 n).length = 2 := leBytes_length 2
  rw [listedNumbers, length_flatMap_items hl, Nat.mul_div_cancel _ two_pos, pieces_flatMap hl, List.map_map]
  refine (List.map_congr_left fun n hn => ?_).trans (List.map_id _)
  exact (leValue_leBytes 2 n).trans (Nat.mod_eq_of_lt (h n hn))

/-- The taking of the frame changes no point. -/
theorem readPoint_dequeue (s : State) (p : Point) : readPoint (dequeue s) p = readPoint s p := by
  cases p <;> simp only [readPoint, spanReference, dequeue_line, dequeue_bands, dequeue_profiles,
    dequeue_pins, dequeue_react, dequeue_meas, dequeue_linkSilence, dequeue_loops, dequeue_engine,
    dequeue_user]

/-- R53: the entry of one number. -/
theorem readEntry_dequeue (s : State) (n : Nat) : readEntry (dequeue s) n = readEntry s n := by
  unfold readEntry
  simp only [readPoint_dequeue]

theorem readEntry_present {n : Nat} {p : Point} (h : Point.ofNumber n = some p) (s : State) :
    readEntry s n = leBytes 2 n ++ (enc32 (readPoint s p) ++ [0]) := by
  rw [readEntry, h]
  exact List.append_assoc ..

theorem readEntry_absent {n : Nat} (h : Point.ofNumber n = none) (s : State) :
    readEntry s n = leBytes 2 n ++ (enc32 0 ++ [4]) := by
  rw [readEntry, h]
  exact List.append_assoc ..

theorem pointReadAnswer_taken {payload : List Byte} (h : holdsItems 2 64 payload = true) (s : State) :
    pointReadAnswer payload s = readOut ((listedNumbers payload).flatMap (readEntry s)) s := if_pos h

theorem pointReadAnswer_length {payload : List Byte} (h : ¬holdsItems 2 64 payload = true) (s : State) :
    pointReadAnswer payload s = refuse .length s := if_neg h

/-- R53: POINT_READ reads the numbers in order, and changes nothing but the taking of its frame. -/
theorem exec_pointRead_taken {tag : Byte} {numbers : List Nat} {s : State}
    (h : ∀ n ∈ numbers, n < 65536) (h1 : 1 ≤ numbers.length) (h64 : numbers.length ≤ 64)
    (ht : takeable ⟨0x02, tag, numbers.flatMap (leBytes 2)⟩ s = true) :
    exec (.pointRead tag (numbers.flatMap (leBytes 2))) s =
      .next (putReply ⟨0x82, tag, 0 :: numbers.flatMap (readEntry s)⟩ (dequeue s)) := by
  have hh : holdsItems 2 64 (numbers.flatMap (leBytes 2)) = true :=
    (holdsItems_iff two_pos 64 _).mpr ⟨_, length_flatMap_items (leBytes_length 2) numbers, h1, h64⟩
  refine congrArg Host.Outcome.next
    (takeRequest_answered (st := .ok) (items := numbers.flatMap (readEntry s)) ht ?_)
  rw [pointReadAnswer_taken hh, listedNumbers_flatMap h, readOut, funext (readEntry_dequeue s)]

/-! ## POINT_WRITE -/

/-- R193: a signed 32-bit value is spelled by its four bytes. -/
theorem dec32_leBytes (v : BitVec 32) : dec32 (leBytes 4 v.toNat) = v.toInt := by
  have hv : v.toNat % 256 ^ 4 = v.toNat := Nat.mod_eq_of_lt v.isLt
  rw [dec32, leValue_leBytes, hv, BitVec.ofNat_toNat, BitVec.setWidth_eq]

/-- R54: the bytes of one pair. -/
def pairBytes (p : Nat × BitVec 32) : List Byte := leBytes 2 p.1 ++ leBytes 4 p.2.toNat

theorem pairBytes_length (p : Nat × BitVec 32) : (pairBytes p).length = 6 := by
  rw [pairBytes, List.length_append, leBytes_length, leBytes_length]

theorem pairBytes_spell {p : Nat × BitVec 32} (h : p.1 < 65536) :
    (wordAt (pairBytes p) 0, longAt (pairBytes p) 2) = (p.1, p.2.toInt) := by
  have h0 : fieldAt (pairBytes p) 0 2 = leBytes 2 p.1 := List.take_left' (leBytes_length 2 _)
  have h2 : fieldAt (pairBytes p) 2 4 = leBytes 4 p.2.toNat := by
    rw [fieldAt, pairBytes, List.drop_left' (leBytes_length 2 _), List.take_of_length_le]
    exact (leBytes_length 4 _).le
  rw [wordAt, longAt, h0, h2, leValue_leBytes, dec32_leBytes, Nat.mod_eq_of_lt (by exact h)]

theorem listedPairs_flatMap {pairs : List (Nat × BitVec 32)} (h : ∀ p ∈ pairs, p.1 < 65536) :
    listedPairs (pairs.flatMap pairBytes) = pairs.map fun p => (p.1, p.2.toInt) := by
  rw [listedPairs, length_flatMap_items pairBytes_length, Nat.mul_div_cancel _ (by decide),
    pieces_flatMap pairBytes_length, List.map_map]
  exact List.map_congr_left fun p hp => pairBytes_spell (h p hp)

theorem pointWriteAnswer_taken {payload : List Byte} (h : holdsItems 6 32 payload = true) (s : State) :
    pointWriteAnswer payload s =
      ⟨settle (writePairs (listedPairs payload) s).1, .ok,
        (writePairs (listedPairs payload) s).2.flatMap fun st => enc8 st.code⟩ := if_pos h

theorem pointWriteAnswer_length {payload : List Byte} (h : ¬holdsItems 6 32 payload = true) (s : State) :
    pointWriteAnswer payload s = refuse .length s := if_neg h

/-- R54: POINT_WRITE works its pairs, and what they leave is taken when it ends. -/
theorem exec_pointWrite_taken {tag : Byte} {pairs : List (Nat × BitVec 32)} {s : State}
    (h : ∀ p ∈ pairs, p.1 < 65536) (h1 : 1 ≤ pairs.length) (h32 : pairs.length ≤ 32)
    (ht : takeable ⟨0x03, tag, pairs.flatMap pairBytes⟩ s = true) :
    let r := writePairs (pairs.map fun p => (p.1, p.2.toInt)) (dequeue s)
    exec (.pointWrite tag (pairs.flatMap pairBytes)) s =
      .next (putReply ⟨0x83, tag, 0 :: r.2.flatMap fun st => enc8 st.code⟩ (settle r.1)) := by
  intro r
  have hh : holdsItems 6 32 (pairs.flatMap pairBytes) = true :=
    (holdsItems_iff (by decide) 32 _).mpr ⟨_, length_flatMap_items pairBytes_length pairs, h1, h32⟩
  refine congrArg Host.Outcome.next
    (takeRequest_answered (st := .ok) (items := r.2.flatMap fun st => enc8 st.code) ht ?_)
  rw [pointWriteAnswer_taken hh, listedPairs_flatMap h]

/-- R54: one status a pair. -/
theorem writePairs_length (l : List (Nat × Int)) (s : State) : (writePairs l s).2.length = l.length := by
  induction l generalizing s with
  | nil => rfl
  | cons p l ih => exact congrArg (· + 1) (ih _)

/-- R93: the points that move the places of the lots are those of numbers 17 to 20. -/
theorem movesLots_iff (p : Point) : movesLots p = true ↔ 17 ≤ p.number ∧ p.number ≤ 20 := by
  cases p <;> simp [movesLots, Point.number] <;> omega

theorem Status.taken_iff (st : Status) : st.taken = true ↔ st = .ok ∨ st = .clamped := by
  simp [Status.taken]

/-- R93: a taken write of one of those four finds the lots afresh. -/
theorem followGeometry_eq (n : Nat) (st : Status) (s : State) : followGeometry n st s =
    if (17 ≤ n ∧ n ≤ 20) ∧ (st = .ok ∨ st = .clamped) then findLotsWithin s else s := by
  cases hp : Point.ofNumber n with
  | none =>
    have hn : ¬(17 ≤ n ∧ n ≤ 20) := by
      rintro ⟨h1, h2⟩
      interval_cases n <;> cases hp
    rw [followGeometry, hp, if_neg (fun hc => hn hc.1)]
  | some p =>
    obtain rfl := number_ofNumber hp
    have hc : (movesLots p && st.taken) = true ↔
        (17 ≤ p.number ∧ p.number ≤ 20) ∧ (st = .ok ∨ st = .clamped) := by
      rw [Bool.and_eq_true, movesLots_iff, Status.taken_iff]
    rw [followGeometry, hp]
    exact if_congr hc rfl rfl

/-! ## What the LIVE points show -/

/-- R47: the number of a point shows the value of the point. -/
theorem shows_number (s : State) (p : Point) :
    (Point.ofNumber p.number).map (readPoint s) = some (readPoint s p) := by
  rw [ofNumber_number, Option.map_some]

/-- A value that the number `n` shows, by the point whose number it is. -/
theorem shows_of {s : State} {n : Nat} {v : Int} (p : Point) (hn : p.number = n) (hv : readPoint s p = v) :
    (Point.ofNumber n).map (readPoint s) = some v := by
  subst hn hv
  exact shows_number s p

/-- Settles O22: the payloads item by item, a pair and what follows it, and each LIVE point by its number. -/
theorem pointRequestsTaken : Obligations.PointRequestsTaken := by
  unfold Obligations.PointRequestsTaken
  refine ⟨fun tag numbers s h h1 h64 ht => ?_, fun tag payload s ht hl => ?_,
    ⟨fun tag pairs s h h1 h32 ht => ⟨exec_pointWrite_taken h h1 h32 ht, ?_⟩, fun n v rest s => rfl,
      fun n v s => ⟨rfl, followGeometry_eq n _ _⟩, fun k detail s => rfl, fun tag payload s ht hl => ?_⟩,
    fun s => ?_⟩
  · refine (exec_pointRead_taken h h1 h64 ht).trans ?_
    refine congrArg (fun items => Host.Outcome.next (putReply ⟨0x82, tag, 0 :: items⟩ (dequeue s))) ?_
    refine congrArg (numbers.flatMap ·) (funext fun n => ?_)
    cases hp : Point.ofNumber n with
    | none => exact readEntry_absent hp s
    | some p => exact readEntry_present hp s
  · have hh : ¬holdsItems 2 64 payload = true := by
      rw [holdsItems_iff two_pos]
      omega
    exact congrArg Host.Outcome.next (takeRequest_answered ht (pointReadAnswer_length hh _))
  · exact (writePairs_length _ _).trans (List.length_map _)
  · have hh : ¬holdsItems 6 32 payload = true := by
      rw [holdsItems_iff (by decide)]
      omega
    exact congrArg Host.Outcome.next (takeRequest_answered ht (pointWriteAnswer_length hh _))
  · intro shows flag lot
    refine ⟨⟨shows_of .lineMode rfl ?_, shows_of .runPhase rfl ?_, shows_of .webPosition rfl rfl,
        shows_of .measuredSpeed rfl rfl, shows_of .speedReference rfl rfl, shows_of .speedTarget rfl rfl,
        shows_of .bandCount rfl rfl, shows_of .currentLotSeq rfl ?_, shows_of .currentFabric rfl rfl,
        shows_of .heatLotSeq rfl ?_, shows_of .nipLotSeq rfl ?_, shows_of .nipFb rfl rfl,
        shows_of .estop rfl rfl, shows_of .guard rfl rfl, shows_of .reactionLock rfl rfl,
        shows_of .lastChannel rfl rfl⟩,
      fun c => ⟨shows_of (.chanRaw c) rfl rfl, shows_of (.chanScaled c) rfl rfl,
        shows_of (.chanProcessed c) rfl rfl, shows_of (.chanStatus c) rfl ?_,
        shows_of (.zeroCorr c) rfl rfl⟩,
      fun k => ⟨shows_of (.loopSetpoint k) rfl rfl, shows_of (.loopIntegrator k) rfl rfl⟩,
      shows_of .drumReference rfl rfl, fun t k hk => shows_of (.spanReference t) rfl ?_,
      fun n => shows_of (.outCounts n) rfl rfl,
      fun z => ⟨shows_of (.activeDuty z) rfl rfl, shows_of (.histCount z) rfl rfl,
        shows_of (.histMean z) rfl ?_⟩,
      shows_of .scanState rfl ?_, shows_of .scanFirst rfl rfl, shows_of .scanLast rfl rfl,
      shows_of .sampleTime rfl rfl, shows_of .nipState rfl ?_, shows_of .feed rfl rfl,
      shows_of .beacon rfl rfl, shows_of .heatHold rfl rfl⟩
    · show (s.line.mode.code : Int) = _
      cases s.line.mode <;> rfl
    · show (s.line.phase.code : Int) = _
      cases s.line.phase <;> rfl
    · show lotSeqValue s.profiles.current = _
      cases s.profiles.current <;> rfl
    · show lotSeqValue s.profiles.heat = _
      cases s.profiles.heat <;> rfl
    · show lotSeqValue s.profiles.nip = _
      cases s.profiles.nip <;> rfl
    · show (s.meas.channels[c]).statusValue = _
      unfold Channel.statusValue
      cases (s.meas.channels[c]).status <;> cases (s.meas.channels[c]).mode <;> rfl
    · obtain rfl : k = spanLoop t := Fin.ext hk
      rfl
    · show ringMean s.bands.history[z] = _
      cases s.bands.history[z] <;> rfl
    · show (s.meas.scan.code : Int) = _
      cases s.meas.scan <;> rfl
    · show (s.line.nip.code : Int) = _
      cases s.line.nip <;> rfl

end Sys2Proof.Machine

namespace Sys2Proof.Machine

/-! ## The numbers of the points -/

/-- Table 3-3: the gap between the span references and the outputs, and the end of the table. -/
theorem Point.number_range (p : Point) : p.number < 307 ∨ (309 < p.number ∧ p.number < 368) := by
  cases p <;> simp only [Point.number] <;> omega

theorem ofNumber_present_low : ∀ (i : Fin 23) (j : Fin 16),
    (Point.ofNumber (16 * i.val + j.val)).isNone =
      decide (307 ≤ 16 * i.val + j.val ∧ 16 * i.val + j.val ≤ 309) := by decide

theorem ofNumber_eq_some_iff (n : Nat) (p : Point) : Point.ofNumber n = some p ↔ p.number = n :=
  ⟨number_ofNumber, fun h => h ▸ ofNumber_number p⟩

/-- Table 3-3: the numbers that no point has. -/
theorem ofNumber_eq_none_iff (n : Nat) :
    Point.ofNumber n = none ↔ (307 ≤ n ∧ n ≤ 309) ∨ 368 ≤ n := by
  constructor
  · intro h
    by_cases hn : n < 368
    · have hp := ofNumber_present_low ⟨n / 16, by omega⟩ ⟨n % 16, by omega⟩
      dsimp only at hp
      rw [Nat.div_add_mod, h] at hp
      exact .inl (of_decide_eq_true hp.symm)
    · exact .inr (Nat.not_lt.mp hn)
  · intro h
    refine Option.eq_none_iff_forall_not_mem.mpr fun p hp => ?_
    have hn := number_ofNumber hp
    have hr := p.number_range
    omega

/-- Settles O21: the two directions of the map, and the numbers outside it. -/
theorem pointNumbersUnique : Obligations.PointNumbersUnique := by
  unfold Obligations.PointNumbersUnique
  exact ⟨ofNumber_eq_some_iff, ofNumber_eq_none_iff⟩

end Sys2Proof.Machine

namespace Sys2Proof.Machine

/-! ## What is handed over -/

/-- R56: a change of the value, or an arrival of the channel whose point it is. -/
theorem handedOver_iff (old new : State) (a : Option (Fin 16)) (p : Point) :
    handedOver old new a p = true ↔ readPoint old p ≠ readPoint new p ∨
      ∃ c, a = some c ∧ (p = .chanRaw c ∨ p = .chanScaled c ∨ p = .chanProcessed c ∨ p = .chanStatus c) := by
  unfold handedOver
  rw [Bool.or_eq_true, decide_eq_true_eq, or_comm]
  refine or_congr_right ?_
  cases a with
  | none => simp
  | some c =>
    simp only [Option.some.injEq, exists_eq_left']
    cases p <;> simp [eq_comm (a := c)]

/-- R81: outside the counts of the outputs, the two states show the same. -/
def SameButCounts (s t : State) : Prop :=
  ∀ q : Point, (∀ m, q ≠ .outCounts m) → readPoint t q = readPoint s q

theorem SameButCounts.refl (s : State) : SameButCounts s s := fun _ _ => rfl

theorem SameButCounts.source {s t : State} (h : SameButCounts s t) (n : Fin 5) :
    (t.loops.outputs[n]).source = (s.loops.outputs[n]).source := h (.outSource n) nofun

theorem SameButCounts.countsFor {s t : State} (h : SameButCounts s t) (n : Fin 5) (v : Int) :
    countsFor t.loops.outputs[n] v = countsFor s.loops.outputs[n] v := by
  have hz : (t.loops.outputs[n]).zeroAt = (s.loops.outputs[n]).zeroAt := h (.outZero n) nofun
  have hf : (t.loops.outputs[n]).fullAt = (s.loops.outputs[n]).fullAt := h (.outFull n) nofun
  have hl : (t.loops.outputs[n]).calLo = (s.loops.outputs[n]).calLo := h (.outCalLo n) nofun
  have hh : (t.loops.outputs[n]).calHi = (s.loops.outputs[n]).calHi := h (.outCalHi n) nofun
  unfold Machine.countsFor
  rw [hz, hf, hl, hh]

theorem SameButCounts.handedOver {s t : State} (h : SameButCounts s t) {p : Point}
    (hp : ∀ m, p ≠ .outCounts m) (old : State) (a : Option (Fin 16)) :
    handedOver old t a p = handedOver old s a p := by
  unfold Machine.handedOver
  rw [h p hp]

/-! ## The outputs -/

/-- One output's turn leaves the rest of the part as it shows. -/
theorem handToOutput_same {new s : State} (h : SameButCounts new s) (old : State)
    (a : Option (Fin 16)) (m : Fin 5) : SameButCounts new (handToOutput old a s m) := by
  unfold handToOutput
  split
  · exact h
  · next q hq =>
    split
    · rw [recomputeOutput_eq hq]
      exact fun r hr => (readPoint_counts (hr m) _ s).trans (h r hr)
    · exact h

theorem handToOutput_other {n m : Fin 5} (h : n ≠ m) (old : State) (a : Option (Fin 16)) (s : State) :
    (handToOutput old a s m).loops.outputs[n] = s.loops.outputs[n] := by
  unfold handToOutput
  split
  · rfl
  · split
    · simp [recomputeOutput, modifyOutput_getElem, Fin.val_inj, h]
    · rfl

/-- R81: in its own turn the output maps its source, if that is handed over. -/
theorem handToOutput_own {new s : State} (h : SameButCounts new s) {n : Fin 5} {p : Point}
    (hs : (new.loops.outputs[n]).source = p.number) (hp : ∀ m, p ≠ .outCounts m) (old : State)
    (a : Option (Fin 16)) : ((handToOutput old a s n).loops.outputs[n]).counts =
      if handedOver old new a p then countsFor new.loops.outputs[n] (readPoint new p)
      else (s.loops.outputs[n]).counts := by
  have hq : Point.ofInt (s.loops.outputs[n]).source = some p := by rw [h.source, hs, ofInt_number]
  unfold handToOutput
  rw [hq]
  dsimp only
  rw [h.handedOver hp]
  split
  · rw [recomputeOutput_eq hq, modifyOutput_same, h.countsFor, h p hp]
  · rfl

theorem settleOutputs_kept {P : State → Prop} {old : State} {a : Option (Fin 16)}
    (h : ∀ s m, P s → P (handToOutput old a s m)) (n : Nat) :
    ∀ s, P s → P (settleOutputs old a n s) := by
  induction n with
  | zero => exact fun _ hs => hs
  | succ n ih => exact fun s hs => ih _ (foldl_kept _ h _ s hs)

theorem settleOutputs_same (old new : State) (a : Option (Fin 16)) (n : Nat) :
    SameButCounts new (settleOutputs old a n new) :=
  settleOutputs_kept (P := SameButCounts new) (fun _ m h => handToOutput_same h old a m) n new (.refl new)

/-- R81: output n stands at counts v, in a part that else shows what `new` shows. -/
def StandsAt (new : State) (n : Fin 5) (v : Int) (s : State) : Prop :=
  SameButCounts new s ∧ (s.loops.outputs[n]).counts = v

theorem handToOutput_standsAt {new s : State} {n : Fin 5} {v : Int} (h : StandsAt new n v s)
    {old : State} {a : Option (Fin 16)}
    (own : ((handToOutput old a s n).loops.outputs[n]).counts = v) (m : Fin 5) :
    StandsAt new n v (handToOutput old a s m) := by
  refine ⟨handToOutput_same h.1 old a m, ?_⟩
  by_cases e : n = m
  · exact e ▸ own
  · rw [handToOutput_other e]
    exact h.2

/-- R81: a pass over the outputs brings an output whose source is handed over to its counts, and
the passes after it leave it there. -/
theorem settleOutputs_handed {old new : State} {a : Option (Fin 16)} {n : Fin 5} {p : Point}
    (hs : (new.loops.outputs[n]).source = p.number) (hp : ∀ m, p ≠ .outCounts m)
    (hh : handedOver old new a p = true) {k : Nat} (hk : 0 < k) :
    ((settleOutputs old a k new).loops.outputs[n]).counts =
      countsFor new.loops.outputs[n] (readPoint new p) := by
  have own (s : State) (h : SameButCounts new s) :
      StandsAt new n (countsFor new.loops.outputs[n] (readPoint new p)) (handToOutput old a s n) :=
    ⟨handToOutput_same h old a n, by rw [handToOutput_own h hs hp, if_pos hh]⟩
  have keep := fun s m h => handToOutput_standsAt h (own s h.1).2 m
  have pass : StandsAt new n (countsFor new.loops.outputs[n] (readPoint new p))
      (handToOutputs old a new) := by
    obtain ⟨l₁, l₂, hl⟩ := List.append_of_mem (List.mem_finRange n)
    unfold handToOutputs
    rw [hl, List.foldl_append, List.foldl_cons]
    have before : SameButCounts new (l₁.foldl (handToOutput old a) new) :=
      foldl_kept (P := SameButCounts new) _ (fun _ m h => handToOutput_same h old a m) l₁ new (.refl new)
    exact foldl_kept _ keep l₂ _ (own _ before)
  obtain ⟨j, rfl⟩ := Nat.exists_eq_succ_of_ne_zero hk.ne'
  exact (settleOutputs_kept keep j _ pass).2

theorem settleOutputs_still_counts {old new : State} {a : Option (Fin 16)} {n : Fin 5} {p : Point}
    (hs : (new.loops.outputs[n]).source = p.number) (hp : ∀ m, p ≠ .outCounts m)
    (hh : handedOver old new a p = false) (k : Nat) :
    ((settleOutputs old a k new).loops.outputs[n]).counts = (new.loops.outputs[n]).counts := by
  refine (settleOutputs_kept (P := StandsAt new n (new.loops.outputs[n]).counts) (fun s m h => ?_)
    k new ⟨.refl new, rfl⟩).2
  refine handToOutput_standsAt h ?_ m
  rw [handToOutput_own h.1 hs hp, hh]
  exact h.2

/-! ## The watches -/

theorem judgeWatch_same (w : Fin 16) (v : Int) (s : State) : (judgeWatch w v s).react.watches[w] =
    { s.react.watches[w] with state := (s.react.watches[w]).judged v } := by
  have h : (judgeWatch w v s).react.watches =
      (modifyWatch w (fun y => { y with state := y.judged v }) s).react.watches := by
    unfold judgeWatch
    dsimp only
    split <;> rfl
  simp [h, modifyWatch_getElem]

theorem judgeWatch_other {w x : Fin 16} (h : x ≠ w) (v : Int) (s : State) :
    (judgeWatch w v s).react.watches[x] = s.react.watches[x] := by
  unfold judgeWatch
  dsimp only
  split <;> simp [modifyWatch_getElem, Fin.val_inj, h]

theorem judgeWatch_offers {w : Fin 16} {v : Int} {s : State}
    (hs : (s.react.watches[w]).state ≠ .tripped)
    (ht : ((judgeWatch w v s).react.watches[w]).state = .tripped) :
    .trip w ∈ (judgeWatch w v s).react.deferred := by
  rw [judgeWatch_same] at ht
  unfold judgeWatch
  dsimp only at ht ⊢
  rw [if_pos ⟨ht, hs⟩]
  simp

theorem handToWatch_other {w x : Fin 16} (h : x ≠ w) (old new : State) (a : Option (Fin 16)) (s : State) :
    (handToWatch old new a s w).react.watches[x] = s.react.watches[x] := by
  unfold handToWatch
  split
  · rfl
  · split
    · exact judgeWatch_other h _ s
    · rfl

theorem handToWatch_own {w : Fin 16} {p : Point} {s : State}
    (hs : (s.react.watches[w]).defn.source = p.number) (old new : State) (a : Option (Fin 16)) :
    handToWatch old new a s w =
      if handedOver old new a p then judgeWatch w (readPoint new p) s else s := by
  unfold handToWatch
  rw [hs, ofNumber_number]

theorem handToWatch_loops (old new : State) (a : Option (Fin 16)) (s : State) (w : Fin 16) :
    (handToWatch old new a s w).loops = s.loops := by
  unfold handToWatch judgeWatch
  split
  · rfl
  · split
    · dsimp only
      split <;> rfl
    · rfl

theorem publishArrival_loops (a : Option (Fin 16)) (old new : State) :
    (publishArrival a old new).loops = (settleOutputs old a 5 new).loops :=
  foldl_kept (P := fun t => t.loops = (settleOutputs old a 5 new).loops) _
    (fun t w h => (handToWatch_loops old _ a t w).trans h) _ _ rfl

/-- R161: each watch has one turn, in which its record is the one it had before the hand-over; the
offers of the turns only add up. -/
theorem publishArrival_turn (a : Option (Fin 16)) (old new : State) (w : Fin 16) :
    let u := settleOutputs old a 5 new
    ∃ s : State, s.react.watches[w] = new.react.watches[w] ∧
      (publishArrival a old new).react.watches[w] = (handToWatch old u a s w).react.watches[w] ∧
      (handToWatch old u a s w).react.deferred <+: (publishArrival a old new).react.deferred := by
  intro u
  obtain ⟨l₁, l₂, hl⟩ := List.append_of_mem (List.mem_finRange w)
  obtain ⟨h₁, h₂⟩ : w ∉ l₁ ∧ w ∉ l₂ := by
    have hn := List.nodup_finRange 16
    rw [hl, List.nodup_middle, List.nodup_cons, List.mem_append, not_or] at hn
    exact hn.1
  have skip (l : List (Fin 16)) (h : w ∉ l) (s : State) :
      (l.foldl (handToWatch old u a) s).react.watches[w] = s.react.watches[w] :=
    List.foldlRecOn (motive := fun t => t.react.watches[w] = s.react.watches[w]) l _ rfl
      fun t ht x hx => (handToWatch_other (fun e : w = x => h (e ▸ hx)) old u a t).trans ht
  refine ⟨l₁.foldl (handToWatch old u a) u, ?_, ?_⟩
  · rw [skip l₁ h₁, settleOutputs_react]
  · unfold publishArrival
    rw [hl, List.foldl_append, List.foldl_cons]
    refine ⟨skip l₂ h₂ _, ?_⟩
    generalize handToWatch old u a _ w = t
    exact foldl_kept (P := fun r => t.react.deferred <+: r.react.deferred) _
      (fun r x h => h.trans (handToWatch_react old u a r x).2) l₂ t List.prefix_rfl

theorem publishArrival_watch {old new : State} {a : Option (Fin 16)} {w : Fin 16} {p : Point}
    (hs : (new.react.watches[w]).defn.source = p.number) (hp : ∀ m, p ≠ .outCounts m) :
    (handedOver old new a p = true →
      (publishArrival a old new).react.watches[w] = (judgeWatch w (readPoint new p) new).react.watches[w] ∧
      ((new.react.watches[w]).state ≠ .tripped →
        ((publishArrival a old new).react.watches[w]).state = .tripped →
        .trip w ∈ (publishArrival a old new).react.deferred)) ∧
    (handedOver old new a p = false →
      (publishArrival a old new).react.watches[w] = new.react.watches[w]) := by
  obtain ⟨s, hw, ht, hd⟩ := publishArrival_turn a old new w
  have same := settleOutputs_same old new a 5
  rw [handToWatch_own (p := p) (by rw [hw]; exact hs), same.handedOver hp, same p hp] at ht hd
  refine ⟨fun hh => ?_, fun hh => ?_⟩
  · rw [if_pos hh] at ht hd
    refine ⟨by rw [ht, judgeWatch_same, judgeWatch_same, hw], fun hn hr => ?_⟩
    exact hd.subset (judgeWatch_offers (by rwa [hw]) (by rwa [← ht]))
  · rw [hh, if_neg Bool.false_ne_true] at ht
    rw [ht, hw]

/-! ## An event that hands nothing over -/

theorem handedOver_changed (old new : State) (p : Point) :
    handedOver old new none p = true ↔ readPoint old p ≠ readPoint new p := by
  simp [handedOver_iff]

theorem settleOutputs_still {old new : State}
    (h : ∀ m, handToOutput old none new m = new) (n : Nat) : settleOutputs old none n new = new :=
  settleOutputs_kept (P := fun s => s = new) (fun _ m e => e ▸ h m) n new rfl

theorem settle_idle {s : State} (h : s.react.deferred = []) : settle s = s := by
  have ht : takeOffers Config.offersAtOnce s = s := by
    unfold Config.offersAtOnce takeOffers
    rw [h]
  unfold settle
  rw [ht]
  dsimp only
  rw [h]

theorem commit_still {old new : State} (hd : new.react.deferred = [])
    (h : ∀ p, readPoint old p ≠ readPoint new p →
      (∀ n : Fin 5, (new.loops.outputs[n]).source ≠ p.number) ∧
      (∀ w : Fin 16, (new.react.watches[w]).defn.source ≠ p.number)) : commit old new = new := by
  have ho (m : Fin 5) : handToOutput old none new m = new := by
    unfold handToOutput
    split
    · rfl
    · next p hp =>
      exact if_neg fun hh => (h p ((handedOver_changed ..).mp hh)).1 m (number_ofInt hp)
  have hw (w : Fin 16) : handToWatch old new none new w = new := by
    unfold handToWatch
    split
    · rfl
    · next p hp =>
      exact if_neg fun hh => (h p ((handedOver_changed ..).mp hh)).2 w (number_ofNumber hp).symm
  have hp : publish old new = new := by
    unfold publish publishArrival
    rw [settleOutputs_still ho]
    generalize List.finRange 16 = l
    exact foldl_kept (P := fun s => s = new) _ (fun s w e => by rw [e, hw]) l new rfl
  rw [commit, hp, settle_idle hd]

/-- Settles O52: the outputs in their passes, the watches in their turns, and an event with no effect
on them. -/
theorem pointsHandedOver : Obligations.PointsHandedOver := by
  unfold Obligations.PointsHandedOver
  refine ⟨fun a old new p => ⟨fun n hs => ⟨fun hc hh => ?_, fun hp hh => ?_⟩, fun w hs hp => ?_⟩,
    fun old new hd h => commit_still hd h⟩
  · have hp (m : Fin 5) : p ≠ .outCounts m := fun e => hc n m (e ▸ hs)
    rw [publishArrival_loops]
    exact settleOutputs_handed hs hp ((handedOver_iff ..).mpr hh) (by decide)
  · rw [publishArrival_loops]
    exact settleOutputs_still_counts hs hp (Bool.eq_false_iff.mpr fun e => hh ((handedOver_iff ..).mp e)) 5
  · obtain ⟨handed, still⟩ := publishArrival_watch (old := old) (a := a) hs hp
    exact ⟨fun hh => handed ((handedOver_iff ..).mpr hh),
      fun hh => still (Bool.eq_false_iff.mpr fun e => hh ((handedOver_iff ..).mp e))⟩

end Sys2Proof.Machine

namespace Sys2Proof.Machine

/-! ## The stored points -/

theorem mem_storedPoints_iff (p : Point) : p ∈ storedPoints ↔ isStored p = true := by
  unfold storedPoints
  rw [List.mem_filter, List.mem_filterMap]
  refine ⟨And.right, fun h => ⟨⟨p.number, ?_, ofNumber_number p⟩, h⟩⟩
  have := p.number_range
  rw [List.mem_range]
  omega

/-- R61. -/
theorem isStored_iff (p : Point) : isStored p = true ↔
    (p.cls = .setting ∨ p.cls = .guarded) ∧ (∀ k, p ≠ .loopMode k) ∧ ∀ k, p ≠ .loopOutput k := by
  unfold isStored
  split
  · next k => exact iff_of_false nofun fun h => h.2.1 k rfl
  · next k => exact iff_of_false nofun fun h => h.2.2 k rfl
  · next hm ho => simpa using fun _ => ⟨hm, ho⟩

/-- R61: the stored points stand in the order of their numbers. -/
theorem storedPoints_sorted : storedPoints.Pairwise fun p q => p.number < q.number := by
  refine List.Pairwise.filter _ (List.pairwise_filterMap.mpr ?_)
  refine List.pairwise_lt_range.imp fun {m n} h p hp q hq => ?_
  rwa [number_ofNumber hp, number_ofNumber hq]

/-! ## The current image -/

theorem Place.valid_eq_some_iff (p : Place) (g : Nat) (c : Contents) :
    p.valid = some (g, c) ↔ p = .image g c (imageCheck g c) := by
  refine ⟨fun h => ?_, fun h => h ▸ Place.valid_image g c⟩
  cases p with
  | blank => cases h
  | image g' c' k =>
    simp only [Place.valid, Option.ite_none_right_eq_some, Option.some.injEq, Prod.mk.injEq] at h
    obtain ⟨rfl, rfl, rfl⟩ := h
    rfl

theorem Place.valid_eq_none {p : Place} (h : ∀ g c, p ≠ .image g c (imageCheck g c)) : p.valid = none :=
  Option.eq_none_iff_forall_not_mem.mpr fun x hx => h x.1 x.2 ((Place.valid_eq_some_iff ..).mp hx)

/-- R208: two valid images. -/
theorem currentContents_both {places : Vector Place 2} {g0 g1 : Nat} {c0 c1 : Contents}
    (h0 : places[(0 : Fin 2)] = .image g0 c0 (imageCheck g0 c0))
    (h1 : places[(1 : Fin 2)] = .image g1 c1 (imageCheck g1 c1)) :
    currentContents places = some (if newerPlace g0 g1 = 0 then c0 else c1) := by
  have v0 := (Place.valid_eq_some_iff ..).mpr h0
  have v1 := (Place.valid_eq_some_iff ..).mpr h1
  unfold currentContents currentPlace
  rw [v0, v1, Option.bind_some]
  split
  · next e => rw [e, v0]; rfl
  · next e =>
    have e : newerPlace g0 g1 = 1 := by omega
    rw [e, v1]
    rfl

theorem follows_iff (h g : Nat) : follows h g = true ↔ h = g + 1 ∨ (g = 4294967295 ∧ h = 1) := by
  simp [follows, Config.lastGeneration]

theorem newerPlace_eq (g0 g1 : Nat) : newerPlace g0 g1 =
    if g0 = g1 + 1 ∨ (g1 = 4294967295 ∧ g0 = 1) then 0
    else if g1 = g0 + 1 ∨ (g0 = 4294967295 ∧ g1 = 1) then 1
    else if g0 < g1 then 1 else 0 := by
  simp only [newerPlace, follows_iff]

/-- R208: the generation that follows the other is the newer one; of two that do not, the greater. -/
theorem currentContents_newer {places : Vector Place 2} {g0 g1 : Nat} {c0 c1 : Contents}
    (h0 : places[(0 : Fin 2)] = .image g0 c0 (imageCheck g0 c0))
    (h1 : places[(1 : Fin 2)] = .image g1 c1 (imageCheck g1 c1)) :
    (g0 = g1 + 1 ∨ (g1 = 4294967295 ∧ g0 = 1) → currentContents places = some c0) ∧
    (g1 = g0 + 1 ∨ (g0 = 4294967295 ∧ g1 = 1) → g0 ≠ g1 + 1 → ¬(g1 = 4294967295 ∧ g0 = 1) →
      currentContents places = some c1) ∧
    (g0 ≠ g1 + 1 → ¬(g1 = 4294967295 ∧ g0 = 1) → g1 ≠ g0 + 1 → ¬(g0 = 4294967295 ∧ g1 = 1) →
      (g1 < g0 → currentContents places = some c0) ∧ (g0 < g1 → currentContents places = some c1)) := by
  rw [currentContents_both h0 h1, newerPlace_eq]
  refine ⟨fun f => ?_, fun f n1 n2 => ?_, fun n1 n2 n3 n4 => ⟨fun lt => ?_, fun lt => ?_⟩⟩
  · rw [if_pos f, if_pos rfl]
  · rw [if_neg (not_or.mpr ⟨n1, n2⟩), if_pos f, if_neg one_ne_zero]
  · rw [if_neg (not_or.mpr ⟨n1, n2⟩), if_neg (not_or.mpr ⟨n3, n4⟩), if_neg lt.not_gt, if_pos rfl]
  · rw [if_neg (not_or.mpr ⟨n1, n2⟩), if_neg (not_or.mpr ⟨n3, n4⟩), if_pos lt, if_neg one_ne_zero]

/-- R208: one valid image. -/
theorem currentContents_one {places : Vector Place 2} {i j : Fin 2} {g : Nat} {c : Contents}
    (hij : i ≠ j) (hi : places[i] = .image g c (imageCheck g c))
    (hj : ∀ h x, places[j] ≠ .image h x (imageCheck h x)) : currentContents places = some c := by
  have vi := (Place.valid_eq_some_iff ..).mpr hi
  have vj := Place.valid_eq_none hj
  obtain ⟨rfl, rfl⟩ | ⟨rfl, rfl⟩ : (i = 0 ∧ j = 1) ∨ (i = 1 ∧ j = 0) := by omega
  all_goals
    unfold currentContents currentPlace
    rw [vi, vj, Option.bind_some, vi]
    rfl

theorem currentContents_none {places : Vector Place 2}
    (h : ∀ (i : Fin 2) (g : Nat) (c : Contents), places[i] ≠ .image g c (imageCheck g c)) :
    currentContents places = none := by
  unfold currentContents currentPlace
  rw [Place.valid_eq_none (h 0), Place.valid_eq_none (h 1), Option.bind_none]

/-! ## The write of a setting leaves the other settings -/

theorem forceChannel_inj {f g : Fin 4} (h : (forceChannel f).val = (forceChannel g).val) : f = g :=
  Fin.ext (Nat.add_left_cancel h)

/-- R66: a heat setpoint is no setting, and the dwell is no point. -/
theorem readPoint_refreshHeatSetpoints {q : Point} (hq : isStored q = true) (s : State) :
    readPoint (refreshHeatSetpoints s) q = readPoint s q := by
  have dwell (t : State) : readPoint (checkDwell t) q = readPoint t q := by
    unfold checkDwell
    split
    · split
      · split
        · rfl
        · cases q <;> rfl
      · cases q <;> rfl
    · rfl
  unfold refreshHeatSetpoints
  dsimp only
  rw [apply_ite (readPoint · q), dwell, ite_self]
  cases q <;> first | rfl | exact absurd hq Bool.false_ne_true | skip
  all_goals
    simp only [readPoint, Fin.getElem_fin, tab_getElem]
    split <;> rfl

/-- R52, R55: a setting that is one field of its unit is written alone. -/
theorem storePlain_other_field {p q : Point} (hp : p.number < 36) (hq : isStored q = true) (h : q ≠ p)
    (v : Int) (s : State) : readPoint (storePlain p v s) q = readPoint s q := by
  cases p
  case countsPerMm =>
    simp only [storePlain]
    split
    · rfl
    · cases q <;> first | rfl | exact absurd rfl h
  case overheatMargin =>
    simp only [storePlain, raiseLimits]
    split <;> cases q <;> first | rfl | exact absurd rfl h | exact absurd hq Bool.false_ne_true
  case standbyTemp =>
    simp only [storePlain]
    split
    · rw [readPoint_refreshHeatSetpoints hq]
      cases q <;> first | rfl | exact absurd rfl h
    · cases q <;> first | rfl | exact absurd rfl h
  all_goals first
    | rfl
    | (simp only [Point.number] at hp; omega)
    | (cases q <;> first | rfl | exact absurd rfl h)

/-- R52, R55: a setting of a record is written alone: the others are other fields, or in other records. -/
theorem storePlain_other_record {p q : Point} (hp : 36 ≤ p.number) (hq : isStored q = true) (h : q ≠ p)
    (v : Int) (s : State) : readPoint (storePlain p v s) q = readPoint s q := by
  cases p
  all_goals first | rfl | (simp only [Point.number] at hp; omega) | cases q
  all_goals first | rfl | exact absurd hq Bool.false_ne_true | skip
  all_goals
    simp only [storePlain, recomputeOutput, readPoint, Fin.getElem_fin, modifyChannel_getElem,
      modifyLoop_getElem, modifySpan_getElem, modifyOutput_getElem, upd_getElem]
    split
    · next e =>
      first
        | rfl
        | exact absurd (congrArg _ (Fin.ext e)) h
        | exact absurd (congrArg _ (forceChannel_inj e)) h
    · rfl

theorem storePlain_other {p q : Point} (hq : isStored q = true) (h : q ≠ p) (v : Int) (s : State) :
    readPoint (storePlain p v s) q = readPoint s q :=
  (Nat.lt_or_ge p.number 36).elim (storePlain_other_field · hq h v s) (storePlain_other_record · hq h v s)

end Sys2Proof.Machine

namespace Sys2Proof.Machine

theorem settingWrite_other {p q : Point} (hp : isStored p = true) (hq : isStored q = true) (h : q ≠ p)
    (v : Int) (s : State) : readPoint (settingWrite p v s).state q = readPoint s q := by
  by_cases ho : hasOwnRule p = false
  · rw [settingWrite_plain ho]
    exact storePlain_other hq h _ s
  · cases p
    case linkSilence =>
      show readPoint (writeLinkSilence v s).state q = _
      rw [(writeLinkSilence_taken v s).1]
      cases q <;> first | rfl | exact absurd rfl h
    case heaterWindow => cases q <;> first | rfl | exact absurd rfl h
    case loopMode => exact absurd hp Bool.false_ne_true
    case loopOutput => exact absurd hp Bool.false_ne_true
    case loopOutMin | loopOutMax =>
      cases q <;> first | rfl | exact absurd hq Bool.false_ne_true | skip
      all_goals
        simp only [settingWrite, writeOutMin, writeOutMax, readPoint, Fin.getElem_fin, modifyLoop_getElem]
        split <;> first | rfl | exact absurd (congrArg _ (Fin.ext ‹_›)) h
    case outSource =>
      simp only [settingWrite, writeOutSource]
      split
      · rfl
      · cases q <;> first | rfl | exact absurd hq Bool.false_ne_true | skip
        all_goals
          simp only [recomputeOutput, readPoint, Fin.getElem_fin, modifyOutput_getElem]
          split <;> first | rfl | exact absurd (congrArg _ (Fin.ext ‹_›)) h
    all_goals exact absurd rfl ho

/-- The mode of a loop and its override. -/
def LoopRec.sameMode (l m : LoopRec) : Prop := m.mode = l.mode ∧ m.override = l.override

theorem LoopRec.sameMode.trans {l m n : LoopRec} (h : l.sameMode m) (g : m.sameMode n) : l.sameMode n :=
  ⟨g.1.trans h.1, g.2.trans h.2⟩

theorem modifyLoop_sameMode {f : LoopRec → LoopRec} (h : ∀ l : LoopRec, l.sameMode (f l)) (j : Fin 10)
    (s : State) (k : Fin 10) : (s.loops.loops[k]).sameMode (modifyLoop j f s).loops.loops[k] := by
  simp only [Fin.getElem_fin, modifyLoop_getElem]
  split
  · exact h _
  · exact ⟨rfl, rfl⟩

theorem refreshHeatSetpoints_sameMode (s : State) (k : Fin 10) :
    (s.loops.loops[k]).sameMode (refreshHeatSetpoints s).loops.loops[k] := by
  unfold refreshHeatSetpoints
  dsimp only
  rw [apply_ite State.loops, (checkDwell_units _).2.2.1, ite_self]
  simp only [Fin.getElem_fin, tab_getElem]
  split <;> exact ⟨rfl, rfl⟩

theorem raiseLimits_loops (s : State) : (raiseLimits s).loops.loops = s.loops.loops := by
  unfold raiseLimits
  split <;> rfl

/-- R68, R70: the write of a stored point takes no loop to another mode. -/
theorem settingWrite_sameMode {p : Point} (hp : isStored p = true) (v : Int) (s : State) (k : Fin 10) :
    (s.loops.loops[k]).sameMode (settingWrite p v s).state.loops.loops[k] := by
  cases p
  case loopMode => exact absurd hp Bool.false_ne_true
  case loopOutput => exact absurd hp Bool.false_ne_true
  case linkSilence =>
    show LoopRec.sameMode _ (writeLinkSilence v s).state.loops.loops[k]
    rw [(writeLinkSilence_taken v s).1]
    exact ⟨rfl, rfl⟩
  case countsPerMm =>
    simp only [settingWrite, writePlain, storePlain]
    split <;> exact ⟨rfl, rfl⟩
  case overheatMargin =>
    show LoopRec.sameMode _ (raiseLimits _).loops.loops[k]
    rw [raiseLimits_loops]
    exact ⟨rfl, rfl⟩
  case standbyTemp =>
    simp only [settingWrite, writePlain, storePlain]
    split
    · exact refreshHeatSetpoints_sameMode _ k
    · exact ⟨rfl, rfl⟩
  case loopKp | loopKi | loopOutMin | loopOutMax =>
    exact modifyLoop_sameMode (by exact fun _ => ⟨rfl, rfl⟩) _ s k
  case outSource =>
    simp only [settingWrite, writeOutSource]
    split <;> exact ⟨rfl, rfl⟩
  all_goals exact ⟨rfl, rfl⟩

/-- What the write of a point leaves of the settings store and the queue. -/
theorem settingWrite_store (p : Point) (v : Int) (s : State) :
    (settingWrite p v s).state.nvm = s.nvm ∧ (settingWrite p v s).state.bands.queue = s.bands.queue := by
  by_cases hc : p.cls = .setting
  · exact ⟨(settingWrite_frame p v s hc).nvm, (settingWrite_frame p v s hc).queue⟩
  · cases p
    case countsPerMm =>
      simp only [settingWrite, writePlain, storePlain]
      split <;> exact ⟨rfl, rfl⟩
    all_goals first | exact ⟨rfl, rfl⟩ | exact absurd rfl hc

/-! ## The stored points are taken in the order of their numbers -/

/-- R62: the value `v p` is taken at the stored point p. -/
def takePoint (v : Point → Int) (s : State) (p : Point) : State := (settingWrite p (v p) s).state

/-- The points of an image that holds the value `v p` for each stored point p. -/
def takePoints (v : Point → Int) (s : State) : State := storedPoints.foldl (takePoint v) s

theorem foldl_loadPoint (v : Point → Int) (s : State) :
    (storedPoints.map fun p => (p.number, v p)).foldl loadPoint s = takePoints v s := by
  rw [List.foldl_map]
  refine List.foldl_ext _ _ s fun t p hp => ?_
  unfold loadPoint
  rw [ofNumber_number]
  exact if_pos ((mem_storedPoints_iff p).mp hp)

/-- When a stored point is taken, at a state `u`, the settings from its number on are still what they were,
and those up to its number stand as its own write leaves them. -/
theorem takePoints_at {p : Point} (hp : isStored p = true) (v : Point → Int) (s : State) : ∃ u : State,
    (∀ q, isStored q = true → p.number ≤ q.number → readPoint u q = readPoint s q) ∧
    ∀ q, isStored q = true → q.number ≤ p.number →
      readPoint (takePoints v s) q = readPoint (takePoint v u p) q := by
  obtain ⟨l₁, l₂, hl⟩ := List.append_of_mem ((mem_storedPoints_iff p).mpr hp)
  have sorted := storedPoints_sorted
  rw [hl, List.pairwise_append, List.pairwise_cons] at sorted
  obtain ⟨-, ⟨after, -⟩, before⟩ := sorted
  have keep (l : List Point) (hs : ∀ r ∈ l, r ∈ storedPoints) (q : Point) (hq : isStored q = true)
      (hn : ∀ r ∈ l, r.number ≠ q.number) (t : State) :
      readPoint (l.foldl (takePoint v) t) q = readPoint t q :=
    List.foldlRecOn (motive := fun u => readPoint u q = readPoint t q) l _ rfl fun u hu r hr =>
      (settingWrite_other ((mem_storedPoints_iff r).mp (hs r hr)) hq
        (fun e : q = r => hn r hr (e ▸ rfl)) _ u).trans hu
  refine ⟨l₁.foldl (takePoint v) s, fun q hq h => ?_, fun q hq h => ?_⟩
  · refine keep l₁ (fun r hr => hl ▸ List.mem_append_left _ hr) q hq (fun r hr => ?_) s
    have := before r hr p List.mem_cons_self
    omega
  · unfold takePoints
    rw [hl, List.foldl_append, List.foldl_cons]
    refine keep l₂ (fun r hr => hl ▸ List.mem_append_right _ (List.mem_cons_of_mem _ hr)) q hq
      (fun r hr => ?_) _
    have := after r hr
    omega

end Sys2Proof.Machine

namespace Sys2Proof.Machine

/-! ## What the stored values become -/

/-- R62: a plain setting is clamped as a write clamps it. -/
theorem takePoints_plain {p : Point} (hp : isStored p = true) (ho : hasOwnRule p = false) (v : Point → Int)
    (s : State) : readPoint (takePoints v s) p = clampTo (plainRange p).1 (plainRange p).2 (v p) := by
  obtain ⟨u, -, after⟩ := takePoints_at hp v s
  rw [after p hp le_rfl, takePoint, settingWrite_plain ho]
  exact readPoint_storePlain ((isStored_iff p).mp hp).1 ho _ u

theorem takePoints_linkSilence (v : Point → Int) (s : State) :
    let w := v .linkSilence
    readPoint (takePoints v s) .linkSilence = if w ≤ 0 then 0 else if w < 500 then 500 else min w 60000 := by
  obtain ⟨u, -, after⟩ := takePoints_at (p := .linkSilence) rfl v s
  rw [after .linkSilence rfl le_rfl]
  show (writeLinkSilence (v .linkSilence) u).state.link.linkSilence = _
  rw [(writeLinkSilence_taken _ u).1]

theorem takePoints_heaterWindow (v : Point → Int) (s : State) :
    readPoint (takePoints v s) .heaterWindow = Int.fdiv (clampTo 500 10000 (v .heaterWindow)) 100 * 100 := by
  obtain ⟨u, -, after⟩ := takePoints_at (p := .heaterWindow) rfl v s
  exact after .heaterWindow rfl le_rfl

/-- R52, R62: out_min is judged against the out_max from before the load. -/
theorem takePoints_outMin (v : Point → Int) (s : State) (k : Fin 10) :
    readPoint (takePoints v s) (.loopOutMin k) =
      min (clampTo (boundRange k).1 (boundRange k).2 (v (.loopOutMin k))) (readPoint s (.loopOutMax k)) := by
  obtain ⟨u, before, after⟩ := takePoints_at (p := .loopOutMin k) rfl v s
  rw [after (.loopOutMin k) rfl le_rfl, ← before (.loopOutMax k) rfl (by simp [Point.number])]
  exact (writeOutMin_loop k _ u).1

/-- R52, R62: out_max is judged against the out_min that was loaded. -/
theorem takePoints_outMax (v : Point → Int) (s : State) (k : Fin 10) :
    readPoint (takePoints v s) (.loopOutMax k) =
      max (clampTo (boundRange k).1 (boundRange k).2 (v (.loopOutMax k)))
        (readPoint (takePoints v s) (.loopOutMin k)) := by
  obtain ⟨u, -, after⟩ := takePoints_at (p := .loopOutMax k) rfl v s
  have hmin : readPoint (takePoints v s) (.loopOutMin k) = readPoint u (.loopOutMin k) :=
    (after (.loopOutMin k) rfl (by simp [Point.number])).trans (writeOutMax_loop k _ u).2.1
  rw [after (.loopOutMax k) rfl le_rfl, hmin]
  exact (writeOutMax_loop k _ u).1

theorem boundRange_eq (k : Fin 10) :
    boundRange k = (if k.val < 6 then 0 else -200, if k.val < 6 then 1000 else 200) := by
  unfold boundRange
  by_cases h : k.val < 6
  · rw [if_pos ((isHeatLoop_iff k).mpr h), if_pos h, if_pos h]
  · rw [if_neg (fun e => h ((isHeatLoop_iff k).mp e)), if_neg h, if_neg h]

/-- R52: a chain of outputs is a matter of the sources alone. -/
theorem chainLeadsTo_congr {s t : State}
    (h : ∀ m : Fin 5, readPoint t (.outSource m) = readPoint s (.outSource m)) (n : Fin 5) (fuel : Nat) :
    ∀ v, chainLeadsTo t n fuel v = chainLeadsTo s n fuel v := by
  induction fuel with
  | zero => exact fun _ => rfl
  | succ fuel ih =>
    intro v
    unfold chainLeadsTo
    split
    · next m _ => rw [ih, show (t.loops.outputs[m]).source = (s.loops.outputs[m]).source from h m]
    · rfl

theorem writeOutSource_reads (n : Fin 5) (w : Int) (s : State) :
    readPoint (writeOutSource n w s).state (.outSource n) =
      if Point.ofInt w = none ∨ chainLeadsTo s n 6 w = true then readPoint s (.outSource n) else w := by
  split
  · next h => rw [writeOutSource_refused h]
  · next h =>
    rw [not_or] at h
    obtain ⟨q, hq⟩ := Option.ne_none_iff_exists'.mp h.1
    rw [writeOutSource_taken hq (Bool.eq_false_iff.mpr h.2)]
    simp [readPoint]

/-- The outputs when the source of output n is judged: those before it loaded, the others not yet. -/
def sourcesUpTo (n : Fin 5) (t s : State) : State :=
  { s with loops.outputs := tab fun m : Fin 5 => if m < n then t.loops.outputs[m] else s.loops.outputs[m] }

theorem sourcesUpTo_source (n : Fin 5) (t s : State) (m : Fin 5) :
    readPoint (sourcesUpTo n t s) (.outSource m) =
      if m < n then readPoint t (.outSource m) else readPoint s (.outSource m) := by
  simp only [readPoint, sourcesUpTo, Fin.getElem_fin, tab_getElem]
  split <;> rfl

/-- R52, R62: a source that closes a chain of outputs, or is no point, leaves the one from before. -/
theorem takePoints_outSource (v : Point → Int) (s : State) (n : Fin 5) {t : State}
    (ht : ∀ m : Fin 5, readPoint t (.outSource m) = readPoint (takePoints v s) (.outSource m)) :
    let w := v (.outSource n)
    readPoint (takePoints v s) (.outSource n) =
      if Point.ofInt w = none ∨ chainLeadsTo (sourcesUpTo n t s) n 6 w = true then readPoint s (.outSource n)
      else w := by
  obtain ⟨u, before, after⟩ := takePoints_at (p := .outSource n) rfl v s
  have sources (m : Fin 5) : readPoint (sourcesUpTo n t s) (.outSource m) = readPoint u (.outSource m) := by
    rw [sourcesUpTo_source]
    split
    · next h =>
      have h : m.val < n.val := h
      rw [ht, after (.outSource m) rfl (by simp only [Point.number]; omega)]
      exact settingWrite_other rfl rfl (fun e => h.ne (congrArg Fin.val (Point.outSource.inj e))) _ u
    · next h =>
      have h : ¬m.val < n.val := h
      exact (before (.outSource m) rfl (by simp only [Point.number]; omega)).symm
  dsimp only
  rw [after (.outSource n) rfl le_rfl, chainLeadsTo_congr sources, ← before (.outSource n) rfl le_rfl]
  exact writeOutSource_reads n _ u

/-! ## The load as a whole -/

theorem loadPoint_sameMode (i : Nat × Int) (s : State) (k : Fin 10) :
    (s.loops.loops[k]).sameMode (loadPoint s i).loops.loops[k] := by
  unfold loadPoint
  split
  · exact ⟨rfl, rfl⟩
  · split
    · next hp => exact settingWrite_sameMode hp _ s k
    · exact ⟨rfl, rfl⟩

theorem loadPoints_sameMode (l : List (Nat × Int)) (s : State) (k : Fin 10) :
    (s.loops.loops[k]).sameMode (l.foldl loadPoint s).loops.loops[k] :=
  foldl_kept (P := fun t => (s.loops.loops[k]).sameMode t.loops.loops[k]) loadPoint
    (fun t i e => e.trans (loadPoint_sameMode i t k)) l s ⟨rfl, rfl⟩

/-- What the load of the points leaves of the units that no setting stands in. -/
def LoadKeeps (s t : State) : Prop :=
  t.line.mode = s.line.mode ∧ t.events.fault = s.events.fault ∧ t.nvm.places = s.nvm.places ∧
    t.bands.queue = s.bands.queue

theorem loadPoints_keeps (l : List (Nat × Int)) (s : State) : LoadKeeps s (l.foldl loadPoint s) := by
  refine foldl_kept (P := LoadKeeps s) _ (loadPoint_kept fun p v t e => ?_) l s ⟨rfl, rfl, rfl, rfl⟩
  obtain ⟨hm, hf, hn, hq⟩ := e
  obtain ⟨hn', hq'⟩ := settingWrite_store p v t
  obtain ⟨⟨hm', -⟩, -⟩ := settingWrite_drive p v t
  refine ⟨hm'.trans hm, ?_, ?_, hq'.trans hq⟩
  · rw [settingWrite_events, hf]
  · rw [hn', hn]

section Loaded

variable {s : State} {c : Contents} (h : currentContents s.nvm.places = some c)
include h

theorem loadStore_eq : loadStore s = { applyLoaded (loadContents c s) with
    link.storeState := .loaded, nvm.current := currentPlace s.nvm.places } := by
  unfold loadStore
  rw [h]

/-- R81, R82: what follows from the loaded settings is no setting. -/
theorem loadStore_reads {q : Point} (hq : isStored q = true) :
    readPoint (loadStore s) q = readPoint (c.points.foldl loadPoint s) q := by
  rw [loadStore_eq h]
  cases q <;> first | rfl | exact absurd hq Bool.false_ne_true | skip
  all_goals simp [readPoint, applyLoaded, loadContents, resetOutput]

/-- R62: of an image with a value for every stored point, the settings are those values taken in order. -/
theorem loadStore_takes {v : Point → Int} (hc : c.points = storedPoints.map fun p => (p.number, v p))
    {q : Point} (hq : isStored q = true) : readPoint (loadStore s) q = readPoint (takePoints v s) q := by
  rw [loadStore_reads h hq, hc, foldl_loadPoint]

theorem loadStore_loop (k : Fin 10) : (loadStore s).loops.loops[k] =
    resetOutput (c.points.foldl loadPoint s).loops.loops[k] := by
  rw [loadStore_eq h]
  simp [applyLoaded, loadContents]

theorem loadStore_counts (n : Fin 5) : ((loadStore s).loops.outputs[n]).counts =
    countsFor (loadStore s).loops.outputs[n] 0 := by
  rw [loadStore_eq h]
  simp [applyLoaded, loadContents, countsFor]

theorem loadStore_tables :
    (∀ k : Fin 16, (loadStore s).profiles.colour[k] = (c.colour[k]).map loadColour) ∧
    (∀ k : Fin 8, (loadStore s).profiles.fabric[k] = (c.fabric[k]).map loadFabric) ∧
    (∀ w : Fin 16, (loadStore s).react.watches[w] = Watch.ofDef (loadWatch c.watches[w])) ∧
    (∀ l : Fin 16, (loadStore s).react.levels[l] = Level.ofDef (loadLevel l c.levels[l])) := by
  rw [loadStore_eq h]
  refine ⟨fun k => ?_, fun k => ?_, fun k => ?_, fun k => ?_⟩ <;> simp [applyLoaded, loadContents]

theorem loadStore_units :
    (loadStore s).link.storeState = .loaded ∧ (loadStore s).events.mask = c.mask ∧
    (loadStore s).loops.windowLength = readPoint (loadStore s) .heaterWindow ∧ LoadKeeps s (loadStore s) := by
  rw [loadStore_eq h]
  exact ⟨rfl, rfl, rfl, loadPoints_keeps c.points s⟩

end Loaded

/-- R52, R82: a loop rests at 0 within the bounds that it loaded. -/
theorem loadStore_bounds {s : State} {c : Contents} (h : currentContents s.nvm.places = some c)
    {v : Point → Int} (hc : c.points = storedPoints.map fun p => (p.number, v p)) (k : Fin 10) :
    let l := (loadStore s).loops.loops[k]
    let lo : Int := if k.val < 6 then 0 else -200
    let hi : Int := if k.val < 6 then 1000 else 200
    l.outMin = min (clampTo lo hi (v (.loopOutMin k))) (s.loops.loops[k]).outMax ∧
      l.outMax = max (clampTo lo hi (v (.loopOutMax k))) l.outMin ∧
      l.u = clampTo l.outMin l.outMax 0 ∧ l.i = 256 * l.u ∧
      l.mode = (s.loops.loops[k]).mode ∧ l.override = (s.loops.loops[k]).override := by
  have loaded {q : Point} := loadStore_takes h hc (q := q)
  have hmin := takePoints_outMin v s k
  have hmax := takePoints_outMax v s k
  rw [boundRange_eq, ← loaded rfl] at hmin hmax
  rw [← loaded (q := .loopOutMin k) rfl] at hmax
  refine ⟨hmin, hmax, ?_⟩
  rw [loadStore_loop h]
  exact ⟨rfl, rfl, loadPoints_sameMode c.points s k⟩

/-- Settles O50: the stored points and the current image, then the load by its order of numbers. -/
theorem startLoadsCurrentImage : Obligations.StartLoadsCurrentImage := by
  unfold Obligations.StartLoadsCurrentImage
  refine ⟨fun s => ⟨rfl, rfl, rfl, fun w => tab_getElem .., fun l => tab_getElem .., rfl⟩,
    fun p => (mem_storedPoints_iff p).trans (isStored_iff p), List.pairwise_map.mpr storedPoints_sorted,
    fun g c => rfl, fun _ _ _ _ _ h0 h1 => currentContents_newer h0 h1,
    fun _ _ _ _ _ hij hi hj => currentContents_one hij hi hj, fun _ h => currentContents_none h,
    fun s => ⟨loadStore_blank, fun c h => ?_⟩⟩
  obtain ⟨store, mask, window, mode, fault, places, queue⟩ := loadStore_units h
  obtain ⟨colour, fabric, watches, levels⟩ := loadStore_tables h
  intro t
  refine ⟨store, mask, colour, fabric, watches, levels, mode, loadStore_pins s, fault, places, queue,
    fun v hc => ?_⟩
  have loaded {q : Point} (hq : isStored q = true) : readPoint t q = readPoint (takePoints v s) q :=
    loadStore_takes h hc hq
  refine ⟨fun p hp h1 h2 h3 h4 h5 => ?_, ?_, ?_, window, loadStore_bounds h hc,
    fun n => ⟨?_, loadStore_counts h n⟩⟩
  · have hp := (mem_storedPoints_iff p).mp hp
    obtain ⟨-, hm, ho⟩ := (isStored_iff p).mp hp
    rw [loaded hp]
    exact takePoints_plain hp (hasOwnRule_false h1 h2 hm ho h3 h4 h5) v s
  · exact (loaded rfl).trans (takePoints_linkSilence v s)
  · exact (loaded rfl).trans (takePoints_heaterWindow v s)
  · exact (loaded (q := .outSource n) rfl).trans
      (takePoints_outSource v s n (t := t) fun m => loaded rfl)

end Sys2Proof.Machine

namespace Sys2Proof.Machine

/-! ## The control law and the analog outputs -/

theorem clampTo_eq_max_min_comm {lo hi : Int} (h : lo ≤ hi) (v : Int) :
    clampTo lo hi v = max lo (min hi v) := by
  rw [clampTo_eq_max_min h, min_comm]

/-- R65: the integrator after a computation, by whether the loop winds up. -/
theorem computeLoop_integrator (l : LoopRec) (p : Int) : (computeLoop l p).i =
    clampTo (256 * l.outMin) (256 * l.outMax)
      (if (l.u = l.outMax ∧ 0 < l.setpoint - p) ∨ (l.u = l.outMin ∧ l.setpoint - p < 0) then l.i
      else l.i + l.ki * (l.setpoint - p)) := rfl

/-- R65: the output after a computation, from the integrator that the computation leaves. -/
theorem computeLoop_output (l : LoopRec) (p : Int) : (computeLoop l p).u =
    clampTo l.outMin l.outMax (Int.fdiv (l.kp * (l.setpoint - p) + (computeLoop l p).i) 256) := rfl

theorem countsFor_flat {o : AnalogOut} (h : o.fullAt = o.zeroAt) (v : Int) : countsFor o v = o.calLo :=
  if_pos h

theorem countsFor_span {o : AnalogOut} (h : o.fullAt ≠ o.zeroAt) (v : Int) : countsFor o v =
    clampTo (min o.calLo o.calHi) (max o.calLo o.calHi)
      (o.calLo + Int.tdiv ((v - o.zeroAt) * (o.calHi - o.calLo)) (o.fullAt - o.zeroAt)) := if_neg h

/-- R80: the counts never leave the span between the two calibration values. -/
theorem countsFor_within (o : AnalogOut) (v : Int) :
    min o.calLo o.calHi ≤ countsFor o v ∧ countsFor o v ≤ max o.calLo o.calHi := by
  have hs : min o.calLo o.calHi ≤ max o.calLo o.calHi := min_le_max
  by_cases h : o.fullAt = o.zeroAt
  · rw [countsFor_flat h]
    exact ⟨min_le_left .., le_max_left ..⟩
  · rw [countsFor_span h]
    exact ⟨le_clampTo hs _, clampTo_le hs _⟩

/-- Settles O16: both clamps of a computation, with the anti-windup case split, and the clamp of the
counts to the calibration span. -/
theorem loopAndOutputBounds : Obligations.LoopAndOutputBounds := by
  unfold Obligations.LoopAndOutputBounds
  refine ⟨fun l p h => ?_, fun o v => ?_⟩
  · have h' : 256 * l.outMin ≤ 256 * l.outMax := by omega
    dsimp only
    have hu := computeLoop_output l p
    have hi := computeLoop_integrator l p
    refine ⟨?_, ?_, ?_, ?_, ?_, fun hw => ?_, fun hw => ?_, rfl⟩
    · exact hu ▸ le_clampTo h _
    · exact hu ▸ clampTo_le h _
    · exact hi ▸ le_clampTo h' _
    · exact hi ▸ clampTo_le h' _
    · exact hu.trans (clampTo_eq_max_min_comm h _)
    · rw [hi, if_pos hw, clampTo_eq_max_min_comm h']
    · rw [hi, if_neg hw, clampTo_eq_max_min_comm h']
  · obtain ⟨lo, hi⟩ := countsFor_within o v
    exact ⟨lo, hi, fun h => countsFor_flat h v,
      fun h => (countsFor_span h v).trans (clampTo_eq_max_min_comm min_le_max _)⟩

end Sys2Proof.Machine

namespace Sys2Proof.Machine

/-! ## What an arrival at a heat zone leaves alone -/

theorem zoneLoop_inj {y z : Fin 6} (h : y ≠ z) : zoneLoop y ≠ zoneLoop z := by
  simpa [zoneLoop, Fin.ext_iff] using h

theorem loopsAndZones_lineFrame (l : Vector LoopRec 10) (z : Vector Zone 6) (s : State) :
    LineFrame s { s with loops.loops := l, loops.zones := z } :=
  .of_units (.of_units rfl (LineUnit.sameWeb_refl _) rfl rfl rfl rfl rfl rfl rfl rfl rfl rfl rfl rfl rfl
    rfl rfl rfl rfl) ⟨rfl, rfl, rfl, rfl, rfl, rfl, rfl, rfl⟩

/-- R64, R74 to R76: what the work on one heat zone leaves as it was: the other units but the events it
raises, the spans, and every other zone that is not held off. -/
structure ZoneWork (z : Fin 6) (s t : State) : Prop where
  frame : LineFrame s t
  line : t.line = s.line
  spans : t.loops.spans = s.loops.spans
  held : ∀ y : Fin 6, y ≠ z → heldOff t y = heldOff s y
  zones : ∀ y : Fin 6, y ≠ z → heldOff s y = false → t.loops.zones[y] = s.loops.zones[y]

theorem ZoneWork.trans {z : Fin 6} {s t u : State} (h : ZoneWork z s t) (g : ZoneWork z t u) :
    ZoneWork z s u where
  frame := h.frame.trans g.frame
  line := g.line.trans h.line
  spans := g.spans.trans h.spans
  held y hy := (g.held y hy).trans (h.held y hy)
  zones y hy hs := (g.zones y hy ((h.held y hy).trans hs)).trans (h.zones y hy hs)

theorem ZoneWork.refl (z : Fin 6) (s : State) : ZoneWork z s s :=
  ⟨.refl s, rfl, rfl, fun _ _ => rfl, fun _ _ _ => rfl⟩

theorem modifyLoop_zoneWork (z : Fin 6) (f : LoopRec → LoopRec) (s : State) :
    ZoneWork z s (modifyLoop (zoneLoop z) f s) where
  frame := loopsAndZones_lineFrame _ s.loops.zones s
  line := rfl
  spans := rfl
  held y hy := by
    have e : (modifyLoop (zoneLoop z) f s).loops.loops[zoneLoop y] = s.loops.loops[zoneLoop y] := by
      simp [modifyLoop_getElem, Fin.val_inj, zoneLoop_inj hy]
    rw [heldOff, e]
    rfl
  zones _ _ _ := rfl

theorem modifyZone_zoneWork (z : Fin 6) (f : Zone → Zone) (s : State) :
    ZoneWork z s (modifyZone z f s) where
  frame := loopsAndZones_lineFrame s.loops.loops _ s
  line := rfl
  spans := rfl
  held y hy := by
    rw [heldOff, modifyZone_zone, if_neg hy]
    rfl
  zones y hy _ := by rw [modifyZone_zone, if_neg hy]

theorem enforceHold_zoneWork (z : Fin 6) (s : State) : ZoneWork z s (enforceHold s) where
  frame := loopsAndZones_lineFrame s.loops.loops _ s
  line := rfl
  spans := rfl
  held y _ := heldOff_enforceHold s y
  zones y _ hs := by
    rw [enforceHold_zone, holdZone, hs]
    rfl

theorem record_loops (k : EventKind) (d : Nat) (s : State) : (record k d s).loops = s.loops :=
  (record_units k d s).2.2.2.2.1

theorem heldOff_record (k : EventKind) (d : Nat) (s : State) (z : Fin 6) :
    heldOff (record k d s) z = heldOff s z := by
  rw [heldOff, record_loops, (record_frame k d s).pins]
  rfl

theorem record_zoneWork (z : Fin 6) (k : EventKind) (d : Nat) (s : State) :
    ZoneWork z s (record k d s) where
  frame := record_lineFrame k d s
  line := (record_units k d s).1
  spans := by rw [record_loops]
  held y _ := heldOff_record k d s y
  zones y _ _ := by rw [record_loops]

theorem computeIfAuto_zoneWork (z : Fin 6) (p : Int) (s : State) :
    ZoneWork z s (computeIfAuto (zoneLoop z) p s) := by
  unfold computeIfAuto
  split
  · exact modifyLoop_zoneWork ..
  · exact .refl z s

/-! ## An arrival at a heat zone, in its three parts -/

/-- R74, R75: the fresh mark of the zone's channel and the relative limit brought up to date. -/
def limitedZone (z : Fin 6) (p : Int) (s : State) : State :=
  modifyZone z (lowerLimit (limitTarget s) p)
    (modifyLoop (zoneLoop z) (fun l => { l with stale := false }) s)

theorem limitedZone_zone (z : Fin 6) (p : Int) (s : State) :
    (limitedZone z p s).loops.zones[z] = lowerLimit (limitTarget s) p s.loops.zones[z] := by
  rw [limitedZone, modifyZone_zone, if_pos rfl]
  rfl

theorem limitedZone_loops (z : Fin 6) (p : Int) (s : State) : (limitedZone z p s).loops.loops =
    upd s.loops.loops (zoneLoop z) { s.loops.loops[zoneLoop z] with stale := false } := rfl

theorem limitedZone_zoneWork (z : Fin 6) (p : Int) (s : State) : ZoneWork z s (limitedZone z p s) :=
  (modifyLoop_zoneWork z _ s).trans (modifyZone_zoneWork z _ _)

theorem lowerLimit_overTemp (target : Option Int) (p : Int) (x : Zone) :
    (lowerLimit target p x).overTemp = x.overTemp := by
  unfold lowerLimit
  split
  · split <;> rfl
  · rfl

theorem limitedZone_overTemp (z : Fin 6) (p : Int) (s : State) :
    ((limitedZone z p s).loops.zones[z]).overTemp = (s.loops.zones[z]).overTemp := by
  rw [limitedZone_zone, lowerLimit_overTemp]

/-- R75, R76: does a zone run hot at a temperature? One in over-temperature does until it is at or below the
threshold less 50. -/
def runsHot (hot : Bool) (threshold p : Int) : Bool :=
  if hot then decide (threshold - 50 < p) else decide (threshold < p)

theorem runsHot_false_iff (hot : Bool) (threshold p : Int) : runsHot hot threshold p = false ↔
    if hot = true then p ≤ threshold - 50 else p ≤ threshold := by
  cases hot <;> simp [runsHot]

/-- R75: the zone enters over-temperature, with the hold of R74 and the occurrence. -/
def overheat (z : Fin 6) (s : State) : State :=
  record .overheat (z.val + 1) (enforceHold (modifyZone z (fun x => { x with overTemp := true }) s))

theorem overheat_zoneWork (z : Fin 6) (s : State) : ZoneWork z s (overheat z s) :=
  ((modifyZone_zoneWork z _ s).trans (enforceHold_zoneWork z _)).trans (record_zoneWork ..)

theorem overheat_loops (z : Fin 6) (s : State) : (overheat z s).loops.loops = s.loops.loops := by
  rw [overheat, record_loops]
  rfl

theorem holdZone_relLimit (s : State) (z : Fin 6) :
    (holdZone s z).relLimit = (s.loops.zones[z]).relLimit := by
  unfold holdZone
  split <;> rfl

theorem overheat_marks (z : Fin 6) (s : State) : ((overheat z s).loops.zones[z]).overTemp = true ∧
    ((overheat z s).loops.zones[z]).relLimit = (s.loops.zones[z]).relLimit := by
  rw [overheat, record_loops, enforceHold_zone, holdZone_overTemp, holdZone_relLimit,
    modifyZone_zone, if_pos rfl]
  exact ⟨rfl, rfl⟩

theorem heldOff_of_overTemp {s : State} {z : Fin 6} (h : (s.loops.zones[z]).overTemp = true) :
    heldOff s z = true := by
  rw [heldOff, h, Bool.or_true, Bool.true_or]

/-- R74, R75: the zone is off, with no duty to come, and OVERHEAT has occurred. -/
theorem overheat_off (z : Fin 6) (s : State) : ((overheat z s).loops.zones[z]).active = 0 ∧
    ((overheat z s).loops.zones[z]).heaterOn = false ∧ pendingDuty (overheat z s) z = 0 ∧
    hasKind (overheat z s).events.set .overheat = true := by
  obtain ⟨-, -, -, -, -, -, -, -, -, -, -, hk⟩ := record_units .overheat (z.val + 1)
    (enforceHold (modifyZone z (fun x => { x with overTemp := true }) s))
  have hot : heldOff (modifyZone z (fun x => { x with overTemp := true }) s) z = true :=
    heldOff_of_overTemp (by rw [modifyZone_zone, if_pos rfl])
  obtain ⟨ha, hp⟩ := enforceHold_held hot
  refine ⟨?_, ?_, pendingDuty_heldOff (heldOff_of_overTemp (overheat_marks z s).1), hk⟩
  · rw [overheat, record_loops]
    exact ha
  · rw [overheat, record_loops]
    exact hp

/-- R75, R76: over-temperature kept or left, or entered or not. -/
def judgedZone (z : Fin 6) (p : Int) (s : State) : State :=
  let u := limitedZone z p s
  let hot := runsHot (s.loops.zones[z]).overTemp (overThreshold u z) p
  if (s.loops.zones[z]).overTemp then
    (if hot then u else modifyZone z (fun x => { x with overTemp := false }) u)
  else if hot then overheat z u else u

section judged

variable {z : Fin 6} {p : Int} {s : State}

theorem judgedZone_zoneWork : ZoneWork z s (judgedZone z p s) := by
  refine (limitedZone_zoneWork z p s).trans ?_
  unfold judgedZone
  dsimp only
  split
  · split
    · exact .refl z _
    · exact modifyZone_zoneWork ..
  · split
    · exact overheat_zoneWork ..
    · exact .refl z _

theorem judgedZone_loops : (judgedZone z p s).loops.loops = (limitedZone z p s).loops.loops := by
  unfold judgedZone
  dsimp only
  split
  · split <;> rfl
  · split
    · exact overheat_loops ..
    · rfl

theorem judgedZone_relLimit : ((judgedZone z p s).loops.zones[z]).relLimit =
    ((limitedZone z p s).loops.zones[z]).relLimit := by
  unfold judgedZone
  dsimp only
  split
  · split
    · rfl
    · rw [modifyZone_zone, if_pos rfl]
  · split
    · exact (overheat_marks ..).2
    · rfl

theorem judgedZone_overTemp : ((judgedZone z p s).loops.zones[z]).overTemp =
    runsHot (s.loops.zones[z]).overTemp (overThreshold (limitedZone z p s) z) p := by
  unfold judgedZone
  dsimp only
  split
  · next ho =>
    split
    · next hh => rw [limitedZone_overTemp, hh, ho]
    · next hh => rw [modifyZone_zone, if_pos rfl, Bool.eq_false_of_not_eq_true hh]
  · next ho =>
    split
    · next hh => rw [(overheat_marks ..).1, hh]
    · next hh =>
      rw [limitedZone_overTemp, Bool.eq_false_of_not_eq_true hh, Bool.eq_false_of_not_eq_true ho]

/-- R75, R76: an occurrence is raised at the entry alone. -/
theorem judgedZone_events (h : (s.loops.zones[z]).overTemp = true ∨
    runsHot (s.loops.zones[z]).overTemp (overThreshold (limitedZone z p s) z) p = false) :
    (judgedZone z p s).events = s.events := by
  unfold judgedZone
  dsimp only
  split
  · split <;> rfl
  · next ho =>
    rw [h.resolve_left ho]
    rfl

theorem judgedZone_overheats (ho : (s.loops.zones[z]).overTemp = false)
    (hh : overThreshold (limitedZone z p s) z < p) :
    judgedZone z p s = overheat z (limitedZone z p s) := by
  unfold judgedZone
  rw [ho]
  simp [runsHot, hh]

end judged

/-- R64, R76: the zone is judged, and its loop then computes unless the zone runs hot. -/
def arrivedZone (z : Fin 6) (p : Int) (s : State) : State :=
  if ((judgedZone z p s).loops.zones[z]).overTemp then judgedZone z p s
  else computeIfAuto (zoneLoop z) p (judgedZone z p s)

/-- The branches of an arrival, in the terms of its parts. -/
theorem heatArrival_branches (z : Fin 6) (p : Int) (s : State) : heatArrival z p s =
    if ((limitedZone z p s).loops.zones[z]).overTemp then
      if p ≤ overThreshold (limitedZone z p s) z - 50 then
        commit s (computeIfAuto (zoneLoop z) p
          (modifyZone z (fun x => { x with overTemp := false }) (limitedZone z p s)))
      else commit s (limitedZone z p s)
    else if overThreshold (limitedZone z p s) z < p then commit s (overheat z (limitedZone z p s))
    else commit s (computeIfAuto (zoneLoop z) p (limitedZone z p s)) := rfl

theorem heatArrival_eq (z : Fin 6) (p : Int) (s : State) :
    heatArrival z p s = commit s (arrivedZone z p s) := by
  rw [heatArrival_branches, limitedZone_overTemp, arrivedZone, judgedZone_overTemp]
  unfold judgedZone
  cases (s.loops.zones[z]).overTemp
  · by_cases h : overThreshold (limitedZone z p s) z < p <;> simp [runsHot, h]
  · by_cases h : overThreshold (limitedZone z p s) z - 50 < p
    · simp [runsHot, h]
    · simp [runsHot, h, Int.not_lt.mp h]

theorem arrivedZone_zoneWork (z : Fin 6) (p : Int) (s : State) : ZoneWork z s (arrivedZone z p s) := by
  unfold arrivedZone
  split
  · exact judgedZone_zoneWork
  · exact judgedZone_zoneWork.trans (computeIfAuto_zoneWork ..)

/-- R65: a computation moves nothing of the zones and raises no event. -/
theorem computeIfAuto_units (k : Fin 10) (p : Int) (s : State) :
    (computeIfAuto k p s).loops.zones = s.loops.zones ∧ (computeIfAuto k p s).events = s.events := by
  unfold computeIfAuto
  split <;> exact ⟨rfl, rfl⟩

theorem arrivedZone_units (z : Fin 6) (p : Int) (s : State) :
    (arrivedZone z p s).loops.zones = (judgedZone z p s).loops.zones ∧
      (arrivedZone z p s).events = (judgedZone z p s).events := by
  unfold arrivedZone
  split
  · exact ⟨rfl, rfl⟩
  · exact computeIfAuto_units ..

theorem arrivedZone_overheats {z : Fin 6} {p : Int} {s : State}
    (ho : (s.loops.zones[z]).overTemp = false) (hh : overThreshold (limitedZone z p s) z < p) :
    arrivedZone z p s = overheat z (limitedZone z p s) := by
  rw [arrivedZone, judgedZone_overheats ho hh, if_pos (overheat_marks ..).1]

/-- R64, R76: the loop computes in AUTO, at a zone that the arrival leaves out of over-temperature. -/
theorem arrivedZone_loops (z : Fin 6) (p : Int) (s : State) : (arrivedZone z p s).loops.loops =
    upd s.loops.loops (zoneLoop z)
      (if (s.loops.loops[zoneLoop z]).mode = .auto ∧
          runsHot (s.loops.zones[z]).overTemp (overThreshold (limitedZone z p s) z) p = false then
        computeLoop { s.loops.loops[zoneLoop z] with stale := false } p
      else { s.loops.loops[zoneLoop z] with stale := false }) := by
  have hj := judgedZone_loops (z := z) (p := p) (s := s)
  have hl : (judgedZone z p s).loops.loops[zoneLoop z] =
      { s.loops.loops[zoneLoop z] with stale := false } := by
    rw [hj, limitedZone_loops]
    exact upd_getElem_same ..
  unfold arrivedZone
  rw [judgedZone_overTemp]
  split
  · next hh => rw [hj, limitedZone_loops, if_neg fun hc => absurd (hh.symm.trans hc.2) (by decide)]
  · next hh =>
    unfold computeIfAuto
    rw [hl]
    by_cases hm : (s.loops.loops[zoneLoop z]).mode = .auto
    · rw [if_pos hm, if_pos ⟨hm, Bool.eq_false_of_not_eq_true hh⟩, modifyLoop, hl, hj, limitedZone_loops]
      exact upd_upd ..
    · rw [if_neg hm, if_neg fun hc => hm hc.1, hj, limitedZone_loops]

/-- Settles O18: the relative limit, the judgement and the computation of an arrival, each with what it
leaves alone. -/
theorem heatArrivals : Obligations.HeatArrivals := by
  unfold Obligations.HeatArrivals
  intro z p s limit threshold computes
  have hl : ((limitedZone z p s).loops.zones[z]).relLimit = limit := by
    rw [limitedZone_zone]
    cases hf : heatFabric s <;> cases hr : (s.loops.zones[z]).relLimit <;>
      simp only [limit, lowerLimit, limitTarget, hf, hr, Option.map]
    split
    · rfl
    · exact hr
  have ht : overThreshold (limitedZone z p s) z = threshold := by
    rw [overThreshold, hl]
    rfl
  have hc : computes ↔ (s.loops.loops[zoneLoop z]).mode = .auto ∧
      runsHot (s.loops.zones[z]).overTemp (overThreshold (limitedZone z p s) z) p = false := by
    rw [ht, runsHot_false_iff]
  obtain ⟨zones, events⟩ := arrivedZone_units z p s
  have hot : ((arrivedZone z p s).loops.zones[z]).overTemp =
      runsHot (s.loops.zones[z]).overTemp threshold p := by
    rw [zones, judgedZone_overTemp, ht]
  obtain ⟨f, line, spans, -, others⟩ := arrivedZone_zoneWork z p s
  refine ⟨arrivedZone z p s, heatArrival_eq z p s, ?_, fun ho hp => ?_, fun ho hp => ?_, fun ho => ?_,
    fun h => ?_, fun h => ?_, others, f.outputs, spans, line, f.meas, f.bands, f.profiles, f.engine,
    f.nvm, f.user, f.pins⟩
  · rw [zones, judgedZone_relLimit, hl]
  · rw [arrivedZone_overheats ho (ht ▸ hp)]
    exact ⟨(overheat_marks ..).1, overheat_off ..⟩
  · have hn : runsHot (s.loops.zones[z]).overTemp threshold p = false :=
      (runsHot_false_iff ..).mpr (by rw [ho]; exact hp)
    exact ⟨hot.trans hn, events.trans (judgedZone_events (.inr (by rw [ht, hn])))⟩
  · exact ⟨by rw [hot, ho, runsHot, if_pos rfl], events.trans (judgedZone_events (.inl ho))⟩
  · rw [arrivedZone_loops, if_pos (hc.mp h)]
  · rw [arrivedZone_loops, if_neg fun g => h (hc.mpr g)]

end Sys2Proof.Machine

namespace Sys2Proof.Machine

/-! ## The modes of the loops -/

/-- R68: the base mode of a heat loop. -/
theorem baseMode_zone (s : State) (z : Fin 6) : baseMode s (zoneLoop z) =
    if s.line.mode = .off ∨ s.line.mode = .safe then .off else .auto := by
  have hk : isHeatLoop (zoneLoop z) = true := by simp [isHeatLoop, zoneLoop]
  unfold baseMode
  rw [hk]
  cases s.line.mode <;> simp

/-- R69: only a tension loop is held by a stale mark. -/
theorem ownMode_eq (k : Fin 10) (base : LoopMode) (stale : Bool) : ownMode k base stale =
    if 6 ≤ k.val ∧ base = .auto ∧ stale = true then .hold else base := by
  have hk : isHeatLoop k = false ↔ 6 ≤ k.val := by simp [isHeatLoop]
  exact if_congr (by rw [hk]; tauto) rfl rfl

/-! ## An arrival at a tension loop -/

theorem upd_self {α : Type} {n : Nat} (v : Vector α n) (i : Fin n) : upd v i v[i] = v := by
  refine Vector.ext fun j hj => ?_
  rw [upd_getElem]
  split
  · next h => subst h; rfl
  · rfl

theorem modifyLoop_modifyLoop (k : Fin 10) (f g : LoopRec → LoopRec) (s : State) :
    modifyLoop k g (modifyLoop k f s) = modifyLoop k (fun l => g (f l)) s := by
  rw [modifyLoop, modifyLoop_same]
  simp only [modifyLoop, upd_upd]

theorem modifyLoop_modifySpan (k : Fin 10) (f : LoopRec → LoopRec) (x : Fin 4) (g : Span → Span)
    (s : State) : modifyLoop k f (modifySpan x g s) = modifySpan x g (modifyLoop k f s) := rfl

/-- R67: entering AUTO has no effect but the mode itself. -/
theorem takeMode_auto (k : Fin 10) (s : State) :
    takeMode k .auto s = modifyLoop k (fun l => { l with mode := .auto }) s := by
  unfold takeMode
  split
  · next h =>
    have e : ({ s.loops.loops[k] with mode := .auto } : LoopRec) = s.loops.loops[k] := by rw [← h]
    rw [modifyLoop, e, upd_self]
  · unfold rearmSpan
    split <;> rfl

/-- R69: a fresh arrival brings a tension loop with base mode AUTO and no override to AUTO. -/
theorem refreshLoop_fresh {s : State} {x : Fin 4} (hb : baseMode s (spanLoop x) = .auto)
    (ho : (s.loops.loops[spanLoop x]).override = none) :
    refreshLoop (modifyLoop (spanLoop x) (fun l => { l with stale := false }) s) (spanLoop x) =
      modifyLoop (spanLoop x) (fun l => { l with stale := false, mode := .auto }) s := by
  have hl := modifyLoop_same (spanLoop x) (fun l => { l with stale := false }) s
  have hm : settledMode (modifyLoop (spanLoop x) (fun l => { l with stale := false }) s) (spanLoop x) =
      .auto := by
    rw [settledMode_own (by rw [hl]; exact ho), hl, ownMode_eq, if_neg (by simp)]
    exact hb
  rw [refreshLoop_takes, hm, takeMode_auto, modifyLoop_modifyLoop]

/-- R79: the span of a loop in AUTO after a good or forced arrival has been compared. -/
def comparedSpan (p : Int) (x : Span) : Span :=
  if p < x.lossThreshold then
    { x with timing := if x.timing = none ∧ x.armed = true then some x.lossTime else x.timing }
  else { x with timing := none, armed := true }

theorem webLossStep_auto {s : State} {x : Fin 4} (h : (s.loops.loops[spanLoop x]).mode = .auto) (p : Int) :
    webLossStep x p s = modifySpan x (comparedSpan p) s := by
  rw [webLossStep, if_pos h]
  congr 1
  funext ⟨threshold, time, timing, armed⟩
  unfold comparedSpan
  split
  · cases timing <;> cases armed <;> rfl
  · rfl

theorem computeIfAuto_auto {s : State} {k : Fin 10} (h : (s.loops.loops[k]).mode = .auto) (p : Int) :
    computeIfAuto k p s = modifyLoop k (fun l => computeLoop l p) s := if_pos h

/-- R64, R69, R79: the loop back in AUTO compares and computes, in that order. -/
theorem tensionArrival_auto {s : State} {x : Fin 4} (hb : baseMode s (spanLoop x) = .auto)
    (ho : (s.loops.loops[spanLoop x]).override = none) (p : Int) :
    tensionArrival x p s = commit s (modifySpan x (comparedSpan p) (modifyLoop (spanLoop x)
      (fun l => computeLoop { l with stale := false, mode := .auto } p) s)) := by
  have hm : ((modifyLoop (spanLoop x) (fun l => { l with stale := false, mode := .auto }) s).loops.loops[
      spanLoop x]).mode = .auto := by rw [modifyLoop_same]
  unfold tensionArrival
  dsimp only
  rw [refreshLoop_fresh hb ho, webLossStep_auto hm, computeIfAuto_auto (by exact hm),
    modifyLoop_modifySpan, modifyLoop_modifyLoop]

/-! ## The web-loss timing -/

theorem webLossExpired_running {s : State} {x : Fin 4} (h : (s.loops.spans[x]).timing ≠ none) :
    webLossExpired x s = commit s (record .webLoss (7 + x.val)
      (modifySpan x (fun y => { y with timing := none, armed := false }) s)) := by
  obtain ⟨d, hd⟩ := Option.ne_none_iff_exists'.mp h
  rw [webLossExpired, hd]

theorem exec_webLossExpiry {s : State} (hr : s.runs = true) (x : Fin 4) :
    exec (.webLossExpiry x) s = .next (webLossExpired x s) :=
  congrArg Host.Outcome.next (whenRuns_running hr _)

/-- Settles O19: the mode of each loop, the arrival at a tension loop with base mode AUTO, and the end of
the web-loss timing. -/
theorem tensionArrivalsAndWebLoss : Obligations.TensionArrivalsAndWebLoss := by
  unfold Obligations.TensionArrivalsAndWebLoss
  refine ⟨fun s => ⟨baseMode_zone s, baseMode_span s, fun k => ?_⟩, fun x p s hb ho => ?_,
    fun x s hr ht => ?_⟩
  · rw [(refreshLoops_mode s k).1]
    split
    · next hb => exact settledMode_off hb
    · next hb =>
      split
      · next m ho => exact settledMode_override hb ho
      · next ho => rw [settledMode_own ho, ownMode_eq]
  · exact tensionArrival_auto hb ho p
  · rw [exec_webLossExpiry hr, webLossExpired_running ht]
    rfl

end Sys2Proof.Machine

namespace Sys2Proof.Machine

/-! ## Heater windows -/

/-- R72: only a duty strictly between off and full has an on-time to run out. -/
theorem onTimeOf_eq (duty length : Int) : onTimeOf duty length =
    if 0 < duty ∧ duty < 1000 then some (Int.fdiv (duty * length) 1000) else none := by
  unfold onTimeOf
  by_cases h : 0 < duty ∧ duty < 1000
  · rw [if_pos h, if_neg (by omega)]
    rfl
  · rw [if_neg h, if_pos (by omega)]

theorem exec_heaterWindowStart {s : State} (hr : s.runs = true) :
    exec .heaterWindowStart s = .next (commit s (startWindow s)) :=
  congrArg Host.Outcome.next (whenRuns_running hr _)

theorem onTimeEnds_running {s : State} {z : Fin 6} (h : (s.loops.zones[z]).onTime ≠ none) :
    onTimeEnds z s = modifyZone z (fun x => { x with heaterOn := false, onTime := none }) s := by
  obtain ⟨d, hd⟩ := Option.ne_none_iff_exists'.mp h
  rw [onTimeEnds, hd]

theorem exec_heaterOnTimeEnd {s : State} (hr : s.runs = true) (z : Fin 6) :
    exec (.heaterOnTimeEnd z) s = .next (onTimeEnds z s) :=
  congrArg Host.Outcome.next (whenRuns_running hr _)

/-- Settles O20: the zones that a new window latches, and the zone whose on-time ends. -/
theorem heaterWindows : Obligations.HeaterWindows := by
  unfold Obligations.HeaterWindows
  intro s hr
  refine ⟨?_, fun z h => ?_⟩
  · rw [exec_heaterWindowStart hr]
    unfold startWindow
    simp only [onTimeOf_eq]
  · rw [exec_heaterOnTimeEnd hr, onTimeEnds_running h]
    rfl

end Sys2Proof.Machine

namespace Sys2Proof.Machine

/-! ## The queue and the profile store -/

/-- A write of a point moves no profile and no lot. -/
theorem settingWrite_profiles (p : Point) (v : Int) (s : State) :
    (settingWrite p v s).state.profiles = s.profiles := by
  by_cases hc : p.cls = .setting
  · exact (settingWrite_frame p v s hc).profiles
  · cases p <;> first | rfl | exact absurd rfl hc | skip
    all_goals
      simp only [settingWrite, writePlain, storePlain]
      first | rfl | (split <;> rfl)

theorem loadPoints_profiles (l : List (Nat × Int)) (s : State) :
    (l.foldl loadPoint s).profiles = s.profiles :=
  foldl_kept (P := fun t => t.profiles = s.profiles) loadPoint
    (loadPoint_kept fun p v t h => (settingWrite_profiles p v t).trans h) l s rfl

theorem startEngine_records (s : State) : (startEngine s).bands = s.bands ∧
    (startEngine s).profiles = s.profiles := by
  unfold startEngine
  split
  · exact ⟨rfl, rfl⟩
  · split <;> exact ⟨rfl, rfl⟩

/-- A start leaves the lots absent, whatever image it loads. -/
theorem loadStore_records {s : State} (h : s.profiles = ProfileStore.reset) :
    (loadStore s).bands.queue = s.bands.queue ∧ (loadStore s).profiles.current = none ∧
      (loadStore s).profiles.heat = none ∧ (loadStore s).profiles.nip = none := by
  unfold loadStore
  split
  · rw [h]
    exact ⟨rfl, rfl, rfl, rfl⟩
  · next c _ =>
    have e := loadPoints_profiles c.points s
    rw [h] at e
    obtain ⟨-, -, -, hq⟩ := loadPoints_keeps c.points s
    exact ⟨hq, congrArg ProfileStore.current e, congrArg ProfileStore.heat e,
      congrArg ProfileStore.nip e⟩

/-- P is kept by the operations on the queue and the profile store with which the units work the command c,
and depends on nothing else. -/
structure RecordsKept (P : State → Prop) (c : Instr) : Prop where
  same : ∀ s t, P s → t.bands.queue = s.bands.queue → t.profiles = s.profiles → P t
  heatLot : ∀ l s, P s → isLotOf s l → P { s with profiles.heat := l }
  nipLot : ∀ l s, P s → isLotOf s l → P { s with profiles.nip := l }
  lot : ∀ slot s, P s → s.profiles.fabric[slot] ≠ none → P (declareLot slot s)
  colour : ∀ slot p s, P s → writesProfiles c = true → colourInUse s slot = false →
    P { s with profiles.colour := upd s.profiles.colour slot p }
  fabric : ∀ slot p s, P s → writesProfiles c = true → fabricInUse s slot = false →
    P { s with profiles.fabric := upd s.profiles.fabric slot p }
  accept : ∀ lot colour n d s, P s → isTicketReq c = true → s.bands.queue.length < 64 →
    ticketingCount s < 4 → s.profiles.current = some lot → s.profiles.colour[colour] ≠ none →
    P { s with bands.queue := s.bands.queue ++ [newBand s lot colour n d] }
  edit : ∀ id f s, P s → (∀ b, (f b).id = b.id ∧ (f b).colour = b.colour ∧ (f b).fabric = b.fabric) →
    (∀ b, (f b).state = .ticketing → b.state = .ticketing) → P (modifyBand id f s)
  remove : ∀ id s, P s → P (removeBand id s)

namespace RecordsKept

variable {P : State → Prop} {c : Instr}

theorem of_frame (k : RecordsKept P c) {s t : State} (f : ReactionFrame s t) (h : P s) : P t :=
  k.same s t h f.queue f.profiles

theorem kept (k : RecordsKept P c) : Kept P where
  output n s := k.of_frame (recomputeOutput_frame n s)
  watch _ _ s h := k.same s _ h rfl rfl
  levels _ s h := k.same s _ h rfl rfl
  deferred _ s h := k.same s _ h rfl rfl
  free s h := k.same s _ h rfl rfl
  hold _ s h _ := k.same s _ h rfl rfl
  raise e d s := k.of_frame (record_frame e d s)
  write p v s h hp := k.of_frame (settingWrite_frame p v s hp) h
  ramp t r s := k.of_frame (startRamp_frame t r s)
  abandon s := k.of_frame (abandonRamp_frame s)
  lift s := k.of_frame (liftNip_frame s)
  stop s := k.of_frame (stopLine_frame s)
  heatHold s := k.of_frame (setHeatHold_frame true s)
  beacon s h := k.same s _ h rfl rfl
  report _ s := k.of_frame (offerReport_frame _ s)
  safe s h _ := k.of_frame (safeLine_frame s) h

theorem engine (k : RecordsKept P c) (s : State) (h : P s) : P (startEngine s) :=
  k.same s _ h (by rw [(startEngine_records s).1]) (startEngine_records s).2

/-- The owners touch the queue and the profile store by these operations alone. -/
theorem ownerKept (k : RecordsKept P c) : OwnerKept P c where
  toKept := k.kept
  count _ s h := k.same s _ h rfl rfl
  position _ s h := k.same s _ h rfl rfl
  speed s h := k.same s _ h rfl rfl
  step s := k.of_frame (stepReference_frame s)
  dwellEnd _ h _ := k.of_frame (setMode_frame ..) h
  dwell s := k.of_frame (checkDwell_frame s)
  nipState _ s h := k.same s _ h rfl rfl
  feedback s := k.of_frame (feedbackActive_frame s)
  failed s := k.of_frame (failedEngage_frame s)
  beginStop s h _ := k.of_frame (beginStop_frame s) h
  endStop s := k.of_frame (endStop_frame s)
  heat s h _ := k.of_frame (startHeat_frame s) h
  cool s h _ := k.of_frame (startCool_frame s) h
  run s h _ := k.of_frame (startRun_frame s) h
  thread s h _ := k.of_frame (startThread_frame s) h
  clear s h _ _ := k.of_frame (setMode_frame ..) (k.same s _ h rfl rfl)
  beaconOff s h := k.same s _ h rfl rfl
  nipFb _ s h := k.same s _ h rfl rfl
  guardClosed _ s h := k.same s _ h rfl rfl
  estopOn s h _ := k.same s _ h rfl rfl
  estopOff s h := k.same s _ h rfl rfl
  idlePins _ s h _ _ := k.same s _ h rfl rfl
  scanner _ s h _ := k.same s _ h rfl rfl
  channel _ _ s h := k.same s _ h rfl rfl
  loopFresh _ s h := k.same s _ h rfl rfl
  loopStale j s h := k.of_frame (((modifyLoop_frame ..).trans (refreshLoop_frame _ j)).trans
    (enforceHold_frame _)) h
  tension t s h := k.of_frame ((modifyLoop_frame ..).trans (refreshLoop_frame _ (spanLoop t))) h
  compute _ _ s h := k.same s _ h rfl rfl
  limit _ _ _ s h := k.same s _ h rfl rfl
  overOn _ s h := k.same s _ h rfl rfl
  overOff _ s h := k.same s _ h rfl rfl
  span _ _ s h := k.same s _ h rfl rfl
  window s h _ := k.same s _ h rfl rfl
  onTime _ s h := k.same s _ h rfl rfl
  guardedWrite p v s h _ _ := k.same s _ h (settingWrite_store p v s).2 (settingWrite_profiles p v s)
  heatLot l s h hl := k.of_frame ((refreshHeatSetpoints_frame _).trans (raiseLimits_frame _))
    (k.heatLot l s h hl)
  nipLot l s h hl := k.of_frame (nipLotAtLine_frame ..)
    (k.same _ (refreshTensionSetpoints { s with profiles.nip := l }) (k.nipLot l s h hl) rfl rfl)
  lot := k.lot
  colour := k.colour
  fabric := k.fabric
  accept l i n d s h hc hq ht hl hi :=
    k.engine _ (k.same _ _ (k.accept l i n d s h hc hq ht hl hi) rfl rfl)
  edit := k.edit
  remove := k.remove
  idle s h := k.same s _ h rfl rfl
  engine := k.engine
  admitEntries _ _ _ s h := k.same s _ h (by unfold offerHistory; split <;> rfl)
    (by unfold offerHistory; split <;> rfl)
  clearRings _ s h := k.same s _ h rfl rfl
  lockOn s h _ := k.same s _ h rfl rfl
  lockOff s h := k.same s _ h rfl rfl
  offer r s := k.of_frame (offerReport_frame r s)
  flags _ s h := k.same s _ h (by unfold clearFlags; dsimp only; split <;> rfl)
    (by unfold clearFlags; dsimp only; split <;> rfl)
  mask _ s h := k.same s _ h rfl rfl
  faultClear s h _ := k.same s _ h rfl rfl
  restarting s h := k.same s _ h rfl rfl
  nvm _ s h := k.same s _ h rfl rfl

/-- A start leaves no band and no lot, so that a property of an empty queue holds after it. -/
theorem stepKept (k : RecordsKept P c) (start : ∀ s, s.bands.queue = [] → s.profiles.current = none →
    s.profiles.heat = none → s.profiles.nip = none → P s) : StepKept P c where
  toOwnerKept := k.ownerKept
  receiver _ s h := k.same s _ h rfl rfl
  buffered _ s h _ := k.same s _ h rfl rfl
  silence _ s h := k.same s _ h rfl rfl
  dequeued s h := k.same s _ h (by rw [dequeue_bands]) (dequeue_profiles s)
  reply f s h := k.of_frame (transmitNext_frame { s with link.slot := some f }) (k.same s _ h rfl rfl)
  sent s h := k.of_frame (transmitNext_frame { s with link.sending := none }) (k.same s _ h rfl rfl)
  blank _ _ _ _ _ _ _ _ := start _ rfl rfl rfl rfl
  load s _ _ hq hp := by
    obtain ⟨a, b, c, d⟩ := loadStore_records hp
    exact start _ (a.trans hq) b c d

end RecordsKept

/-! ## Band ids -/

/-- R91, R106: where a counter stands that has advanced k times. -/
def advanced (n k : Nat) : Nat := if n ≤ 65535 ∧ 65535 < n + k then n + k - 65535 else n + k

theorem nextNumber_iterate (n k : Nat) (h : k ≤ 65535) : nextNumber^[k] n = advanced n k := by
  induction k with
  | zero =>
    have : ¬(n ≤ 65535 ∧ 65535 < n + 0) := by omega
    rw [advanced, if_neg this]
    rfl
  | succ k ih =>
    rw [Function.iterate_succ_apply', ih (by omega)]
    unfold advanced nextNumber
    split <;> split <;> split <;> omega

/-- R106: a counter that advances no further than the ids last takes each id once. -/
theorem nextNumber_iterate_inj {n i j : Nat} (hi : 1 ≤ i) (hj : 1 ≤ j) (hi' : i ≤ 65535)
    (hj' : j ≤ 65535) (h : nextNumber^[i] n = nextNumber^[j] n) : i = j := by
  rw [nextNumber_iterate n i hi', nextNumber_iterate n j hj'] at h
  unfold advanced at h
  split at h <;> split at h <;> omega

/-- R106: an id that is given although it is taken comes after as many ids that are taken. -/
theorem freshId_taken {queue : List Band} (k : Nat) : ∀ n, freshId queue (k + 1) n ∈ queue.map Band.id →
    ∀ j, 1 ≤ j → j ≤ k + 1 → nextNumber^[j] n ∈ queue.map Band.id := by
  have taken (n : Nat) (h : queue.any (fun b => b.id == nextNumber n) = true) :
      nextNumber n ∈ queue.map Band.id := by
    simpa [List.any_eq_true] using h
  induction k with
  | zero =>
    intro n h j h1 h2
    obtain rfl : j = 1 := by omega
    unfold freshId at h
    split at h
    · next ht => exact taken n ht
    · exact h
  | succ k ih =>
    intro n h j h1 h2
    unfold freshId at h
    split at h
    · next ht =>
      match j, h1 with
      | 1, _ => exact taken n ht
      | j + 2, _ => exact ih (nextNumber n) h (j + 1) (by omega) (by omega)
    · next ht =>
      simp only [Bool.not_eq_true, List.any_eq_false, beq_iff_eq] at ht
      obtain ⟨b, hb, e⟩ := List.mem_map.mp h
      exact absurd e (ht b hb)

/-- R106: the id of the next accepted band is held by no queued band. -/
theorem nextBandId_fresh {s : State} (h : s.bands.queue.length < 65535) :
    nextBandId s ∉ s.bands.queue.map Band.id := by
  intro hm
  have hall := freshId_taken s.bands.queue.length s.bands.idCounter hm
  have hsub : ((List.range (s.bands.queue.length + 1)).map fun i => nextNumber^[i + 1] s.bands.idCounter) ⊆
      s.bands.queue.map Band.id := by
    intro x hx
    obtain ⟨i, hi, rfl⟩ := List.mem_map.mp hx
    exact hall (i + 1) (by omega) (by simpa using hi)
  have hnd : ((List.range (s.bands.queue.length + 1)).map fun i =>
      nextNumber^[i + 1] s.bands.idCounter).Nodup := by
    refine (List.nodup_map_iff_inj_on List.nodup_range).mpr fun i hi j hj e => ?_
    rw [List.mem_range] at hi hj
    have := nextNumber_iterate_inj (by omega) (by omega) (by omega) (by omega) e
    omega
  have := (List.subperm_of_subset hnd hsub).length_le
  simp at this

/-! ## The queue's capacity and the slots that are named -/

/-- R87, R99, R104, R106: what every command keeps of the queue and the profile store. -/
def RecordsSound (s : State) : Prop := QueueKept s ∧ SlotsOccupied s

theorem QueueKept.of_queue {s t : State} (h : QueueKept s) (q : t.bands.queue = s.bands.queue) :
    QueueKept t where
  records := by rw [q]; exact h.records
  ids := by rw [q]; exact h.ids
  ticketing := by rw [ticketingCount, q]; exact h.ticketing

theorem QueueKept.accept {s : State} (h : QueueKept s) {b : Band} (hq : s.bands.queue.length < 64)
    (hid : b.id ∉ s.bands.queue.map Band.id) (ht : ticketingCount s < 4) :
    QueueKept { s with bands.queue := s.bands.queue ++ [b] } where
  records := by simp only [List.length_append, List.length_singleton]; omega
  ids := by
    rw [List.map_append, List.nodup_append]
    refine ⟨h.ids, List.nodup_singleton _, ?_⟩
    intro x hx y hy e
    rw [List.map_singleton, List.mem_singleton] at hy
    exact hid (by rwa [← hy, ← e])
  ticketing := by
    unfold ticketingCount at ht ⊢
    rw [List.filter_append, List.length_append]
    have : ([b].filter fun b => b.state == .ticketing).length ≤ 1 := List.length_filter_le _ _
    omega

theorem QueueKept.remove {s : State} (h : QueueKept s) (id : Nat) : QueueKept (removeBand id s) where
  records := (List.length_filter_le _ _).trans h.records
  ids := h.ids.sublist (List.filter_sublist.map _)
  ticketing := ((List.filter_sublist.filter _).length_le).trans h.ticketing

theorem QueueKept.edit {s : State} (h : QueueKept s) (id : Nat) (f : Band → Band)
    (hid : ∀ b, (f b).id = b.id) (hs : ∀ b, (f b).state = .ticketing → b.state = .ticketing) :
    QueueKept (modifyBand id f s) where
  records := by rw [modifyBand_queue, List.length_map]; exact h.records
  ids := by
    rw [modifyBand_queue, List.map_map]
    have e : (Band.id ∘ fun b => if b.id = id then f b else b) = Band.id := by
      funext b
      dsimp only [Function.comp]
      split
      · exact hid b
      · rfl
    rw [e]
    exact h.ids
  ticketing := by
    refine le_trans ?_ h.ticketing
    unfold ticketingCount
    rw [modifyBand_queue, List.filter_map, List.length_map]
    refine (List.monotone_filter_right _ fun b hb => ?_).length_le
    dsimp only [Function.comp] at hb
    split at hb
    · rw [beq_iff_eq] at hb ⊢
      exact hs b hb
    · exact hb

theorem SlotsOccupied.lotOf {s : State} (h : SlotsOccupied s) {x : Option Lot} (hx : isLotOf s x) :
    ∀ l, x = some l → s.profiles.fabric[l.fabric] ≠ none := by
  rintro l rfl
  rcases hx with ⟨b, hb, e⟩ | e
  · cases e
    exact h.fabrics b hb
  · exact h.current l e.symm

theorem SlotsOccupied.of_bands {s t : State} (h : SlotsOccupied s) (p : t.profiles = s.profiles)
    (q : ∀ b ∈ t.bands.queue, ∃ a ∈ s.bands.queue, a.colour = b.colour ∧ a.fabric = b.fabric) :
    SlotsOccupied t := by
  refine ⟨fun b hb => ?_, fun b hb => ?_, ?_, ?_, ?_⟩
  · obtain ⟨a, ha, e, -⟩ := q b hb
    simpa only [p, e] using h.colours a ha
  · obtain ⟨a, ha, -, e⟩ := q b hb
    simpa only [p, e] using h.fabrics a ha
  all_goals rw [p]
  · exact h.current
  · exact h.heat
  · exact h.nip

theorem colourInUse_false {s : State} {slot : Fin 16} (h : colourInUse s slot = false) :
    ∀ b ∈ s.bands.queue, b.colour ≠ slot := by
  simpa [colourInUse, colourUses] using h

theorem lotNames_false {x : Option Lot} {slot : Fin 8} (h : lotNames x slot = false) :
    ∀ l, x = some l → l.fabric ≠ slot := by
  rintro l rfl
  simpa [lotNames] using h

theorem fabricInUse_false {s : State} {slot : Fin 8} (h : fabricInUse s slot = false) :
    (∀ b ∈ s.bands.queue, b.fabric ≠ slot) ∧ (∀ l, s.profiles.current = some l → l.fabric ≠ slot) ∧
      (∀ l, s.profiles.heat = some l → l.fabric ≠ slot) ∧
      (∀ l, s.profiles.nip = some l → l.fabric ≠ slot) := by
  simp only [fabricInUse, Bool.or_eq_false_iff] at h
  obtain ⟨⟨⟨hu, hc⟩, hh⟩, hn⟩ := h
  exact ⟨by simpa [fabricUses] using hu, lotNames_false hc, lotNames_false hh, lotNames_false hn⟩

theorem upd_fin_ne {α : Type} {n : Nat} (v : Vector α n) {i j : Fin n} (x : α) (h : j ≠ i) :
    (upd v i x)[j] = v[j] := upd_getElem_other v i x j.isLt fun e => h (Fin.ext e)

theorem recordsSound_kept (c : Instr) : RecordsKept RecordsSound c where
  same s t h q p := ⟨h.1.of_queue q, h.2.of_bands p fun b hb => ⟨b, q ▸ hb, rfl, rfl⟩⟩
  heatLot l s h hl := ⟨h.1.of_queue rfl, h.2.colours, h.2.fabrics, h.2.current, h.2.lotOf hl, h.2.nip⟩
  nipLot l s h hl := ⟨h.1.of_queue rfl, h.2.colours, h.2.fabrics, h.2.current, h.2.heat, h.2.lotOf hl⟩
  lot slot s h hf := ⟨h.1.of_queue rfl, h.2.colours, h.2.fabrics, by rintro l ⟨⟩; exact hf, h.2.heat, h.2.nip⟩
  colour slot p s h _ hu := by
    refine ⟨h.1.of_queue rfl, fun b hb => ?_, h.2.fabrics, h.2.current, h.2.heat, h.2.nip⟩
    rw [upd_fin_ne _ _ (colourInUse_false hu b hb)]
    exact h.2.colours b hb
  fabric slot p s h _ hu := by
    obtain ⟨hb, hc, hh, hn⟩ := fabricInUse_false hu
    refine ⟨h.1.of_queue rfl, h.2.colours, fun b hm => ?_, fun l e => ?_, fun l e => ?_, fun l e => ?_⟩
    · rw [upd_fin_ne _ _ (hb b hm)]; exact h.2.fabrics b hm
    · rw [upd_fin_ne _ _ (hc l e)]; exact h.2.current l e
    · rw [upd_fin_ne _ _ (hh l e)]; exact h.2.heat l e
    · rw [upd_fin_ne _ _ (hn l e)]; exact h.2.nip l e
  accept lot colour n d s h _ hq ht hl hc := by
    refine ⟨h.1.accept hq (nextBandId_fresh (by omega)) ht, fun b hb => ?_, fun b hb => ?_,
      h.2.current, h.2.heat, h.2.nip⟩
    · rcases List.mem_append.mp hb with hb | hb
      · exact h.2.colours b hb
      · cases List.mem_singleton.mp hb
        exact hc
    · rcases List.mem_append.mp hb with hb | hb
      · exact h.2.fabrics b hb
      · cases List.mem_singleton.mp hb
        exact h.2.current lot hl
  edit id f s h hf hs := by
    refine ⟨h.1.edit id f (fun b => (hf b).1) hs, h.2.of_bands rfl fun b hb => ?_⟩
    obtain ⟨a, ha, rfl⟩ := List.mem_map.mp hb
    refine ⟨a, ha, ?_⟩
    split
    · exact ⟨(hf a).2.1.symm, (hf a).2.2.symm⟩
    · exact ⟨rfl, rfl⟩
  remove id s h := ⟨h.1.remove id, h.2.of_bands rfl fun b hb =>
    ⟨b, (List.mem_filter.mp hb).1, rfl, rfl⟩⟩

/-- A part with no band and no lot is sound. -/
theorem recordsSound_empty {s : State} (hq : s.bands.queue = []) (hc : s.profiles.current = none)
    (hh : s.profiles.heat = none) (hn : s.profiles.nip = none) : RecordsSound s := by
  refine ⟨⟨?_, ?_, ?_⟩, ⟨?_, ?_, ?_, ?_, ?_⟩⟩
  · simp [hq]
  · simp [hq]
  · simp [ticketingCount, hq]
  · simp [hq]
  · simp [hq]
  · simp [hc]
  · simp [hh]
  · simp [hn]

/-- Settles O56: the operations on the queue and the profile store keep the invariant in every command. -/
theorem queueAndSlotsKept : Obligations.QueueAndSlotsKept := by
  unfold Obligations.QueueAndSlotsKept
  intro s t hq hs e
  exact step_kept (P := RecordsSound)
    (fun c => (recordsSound_kept c).stepKept fun _ hq hc hh hn => recordsSound_empty hq hc hh hn)
    (fun _ s h => (recordsSound_kept .guardCloses).same s _ h rfl rfl) ⟨hq, hs⟩ e

end Sys2Proof.Machine

namespace Sys2Proof.Machine

/-! ## Profiles that queued bands name -/

/-- R87: the profiles that t's queue names are as they were in s. -/
def NamedSame (s t : State) : Prop := ∀ b ∈ t.bands.queue,
  t.profiles.colour[b.colour] = s.profiles.colour[b.colour] ∧
    t.profiles.fabric[b.fabric] = s.profiles.fabric[b.fabric]

/-- No profile at all differs. -/
def SameProfiles (s t : State) : Prop :=
  t.profiles.colour = s.profiles.colour ∧ t.profiles.fabric = s.profiles.fabric

theorem SameProfiles.of_eq {s t : State} (h : t.profiles = s.profiles) : SameProfiles s t := by
  rw [SameProfiles, h]
  exact ⟨rfl, rfl⟩

theorem SameProfiles.trans {s t u : State} (h : SameProfiles s t) (g : SameProfiles t u) :
    SameProfiles s u := ⟨g.1.trans h.1, g.2.trans h.2⟩

theorem SameProfiles.namedSame {s t : State} (h : SameProfiles s t) : NamedSame s t := by
  intro b _
  rw [h.1, h.2]
  exact ⟨rfl, rfl⟩

/-- R87, R88: a slot in use is neither written nor emptied, so only a TICKET_REQ can name one that was. -/
theorem namedSame_kept (s : State) {c : Instr} (hc : isTicketReq c = false) :
    RecordsKept (NamedSame s) c where
  same t u h q p b hb := by
    rw [p]
    exact h b (q ▸ hb)
  heatLot _ _ h _ := h
  nipLot _ _ h _ := h
  lot _ _ h _ := h
  colour slot _ t h _ hu b hb := by
    rw [upd_fin_ne _ _ (colourInUse_false hu b hb)]
    exact h b hb
  fabric slot _ t h _ hu b hb := by
    rw [upd_fin_ne _ _ ((fabricInUse_false hu).1 b hb)]
    exact h b hb
  accept _ _ _ _ _ _ ht := absurd (hc.symm.trans ht) Bool.false_ne_true
  edit id f t h hf _ b hb := by
    obtain ⟨a, ha, rfl⟩ := List.mem_map.mp hb
    change t.profiles.colour[_] = _ ∧ t.profiles.fabric[_] = _
    obtain ⟨-, e1, e2⟩ := hf a
    split
    · simpa only [e1, e2] using h a ha
    · exact h a ha
  remove id t h b hb := h b (List.mem_filter.mp hb).1

theorem sameProfiles_kept (s : State) {c : Instr} (hc : writesProfiles c = false) :
    RecordsKept (SameProfiles s) c where
  same _ _ h _ p := h.trans (.of_eq p)
  heatLot _ _ h _ := h
  nipLot _ _ h _ := h
  lot _ _ h _ := h
  colour _ _ _ _ hw := absurd (hc.symm.trans hw) Bool.false_ne_true
  fabric _ _ _ _ hw := absurd (hc.symm.trans hw) Bool.false_ne_true
  accept _ _ _ _ _ h _ _ _ _ _ := h
  edit _ _ _ h _ _ := h
  remove _ _ h := h

/-! ### Requests that write no profile -/

theorem validFrame_profiles (f : Frame) (s : State) : (validFrame f s).profiles = s.profiles := by
  have hr (t : State) : (restartSilence t).profiles = t.profiles := (restartSilence_units t).2.2.2.2.1
  unfold validFrame
  split
  · exact hr _
  · exact (raiseEvent_frame ..).profiles.trans (hr _)

theorem takeRequest_sameProfiles {c : Instr} (hc : writesProfiles c = false) (f : Frame) (s : State) :
    SameProfiles s (takeRequest f (answerOf c) s) := by
  have ha : SameProfiles s (answerOf c f.payload (dequeue s)).state :=
    (sameProfiles_kept s hc).ownerKept.answers _ _ (.of_eq (dequeue_profiles s))
  unfold takeRequest
  split
  · exact ha.trans (.of_eq (transmitNext_frame _).profiles)
  · split
    · exact .of_eq (validFrame_profiles f s)
    · exact .of_eq rfl

theorem serve_sameProfiles (l : List Frame) (hl : ∀ f ∈ l, writesProfiles (requestOf f) = false) :
    ∀ s, SameProfiles s (serve l s) := by
  induction l with
  | nil => exact fun s => .of_eq rfl
  | cons f l ih =>
    intro s
    unfold serve
    split
    · exact (takeRequest_sameProfiles (hl f List.mem_cons_self) f s).trans
        (ih (fun g hg => hl g (List.mem_cons_of_mem _ hg)) _)
    · exact .of_eq rfl

/-! ### Bytes received -/

/-- R194, R196: what the receiver leaves of s when it has gathered g: the frames that wait are those that waited
and the one that g spells, it goes on with g or with nothing, and no frame of these changes a profile but by
writing one. -/
structure Gathered (g : List Byte) (s t : State) : Prop where
  waiting : ∀ f ∈ t.link.buffer, f ∈ s.link.buffer ∨ f.body <:+: g
  left : gatheredSoFar t = g ∨ gatheredSoFar t = []
  profiles : (∀ f : Frame, f ∈ s.link.buffer ∨ f.body <:+: g → writesProfiles (requestOf f) = false) →
    SameProfiles s t

theorem gather_gathered (g : List Byte) (s : State) : Gathered g s (gather g s) := by
  have goesOn : Gathered g s { s with link.receiver := .inside g } :=
    ⟨fun f h => .inl h, .inl rfl, fun _ => .of_eq rfl⟩
  have refused (d : Nat) :
      Gathered g s (raiseEvent .linkError d { s with link.receiver := .hunting }) := by
    have hf := raiseEvent_frame .linkError d { s with link.receiver := .hunting }
    refine ⟨fun f h => .inl ?_, .inr (StepKept.gathered_hunting hf.receiver), fun _ => .of_eq hf.profiles⟩
    rwa [hf.buffer] at h
  unfold gather
  split
  · exact goesOn
  · split
    · exact refused 2
    · split
      · exact goesOn
      · split
        · next hl _ =>
          obtain ⟨hb, hv⟩ := validFrame_link (gatheredFrame g) { s with link.receiver := .hunting }
          obtain ⟨hs, hq⟩ := serve_link
            (validFrame (gatheredFrame g) { s with link.receiver := .hunting }).link.buffer
            (validFrame (gatheredFrame g) { s with link.receiver := .hunting })
          have waits : ∀ f ∈ (validFrame (gatheredFrame g)
              { s with link.receiver := .hunting }).link.buffer, f ∈ s.link.buffer ∨ f.body <:+: g := by
            intro f hf
            rcases hb with hb | hb <;> rw [hb] at hf
            · rcases List.mem_append.mp hf with hf | hf
              · exact .inl hf
              · rw [List.mem_singleton.mp hf]
                exact .inr (gatheredFrame_body (by omega)).isInfix
            · exact .inl hf
          refine ⟨fun f hf => waits f (hs.subset hf), .inr (StepKept.gathered_hunting (hq.trans hv)),
            fun ho => ?_⟩
          exact .trans (t := validFrame (gatheredFrame g) { s with link.receiver := .hunting })
            (.of_eq (validFrame_profiles ..)) (serve_sameProfiles _ (fun f hf => ho f (waits f hf)) _)
        · exact refused 1

/-- R194, R197: after a byte the link may take no frame that it might not take before it. -/
theorem receiveByte_spec (b : Byte) (rest : List Byte) (s : State) :
    (∀ f, mayTake (.frameReceived rest) (receiveByte s b) f → mayTake (.frameReceived (b :: rest)) s f) ∧
      ((∀ f, mayTake (.frameReceived (b :: rest)) s f → writesProfiles (requestOf f) = false) →
        SameProfiles s (receiveByte s b)) := by
  unfold receiveByte
  split
  · next hr =>
    have hg : gatheredSoFar s = [] := StepKept.gathered_hunting hr
    split
    · refine ⟨fun f hf => hf.imp id fun hi => ?_, fun _ => .of_eq rfl⟩
      rw [hg]
      exact hi.trans (List.suffix_cons b rest).isInfix
    · refine ⟨fun f hf => hf.imp id fun hi => ?_, fun _ => .of_eq rfl⟩
      rw [hg] at hi ⊢
      exact hi.trans (List.suffix_cons b rest).isInfix
  · next g hr =>
    have hg : gatheredSoFar s = g := StepKept.gathered_inside hr
    have split_bytes : gatheredSoFar s ++ b :: rest = (g ++ [b]) ++ rest := by simp [hg]
    have before : ∀ f : Frame, f ∈ s.link.buffer ∨ f.body <:+: g ++ [b] →
        mayTake (.frameReceived (b :: rest)) s f := fun f hf => hf.imp id fun hi => by
      rw [split_bytes]
      exact hi.trans (List.prefix_append (g ++ [b]) rest).isInfix
    obtain ⟨hb, hs, hp⟩ := gather_gathered (g ++ [b]) s
    refine ⟨fun f hf => ?_, fun ho => hp fun f hf => ho f (before f hf)⟩
    rcases hf with hf | hi
    · exact before f (hb f hf)
    · refine .inr ?_
      rw [split_bytes]
      rcases hs with hs | hs <;> rw [hs] at hi
      · exact hi
      · exact hi.trans (List.suffix_append (g ++ [b]) rest).isInfix

theorem receiveBytes_sameProfiles (bytes : List Byte) : ∀ s,
    (∀ f, mayTake (.frameReceived bytes) s f → writesProfiles (requestOf f) = false) →
      SameProfiles s (receiveBytes bytes s) := by
  induction bytes with
  | nil => exact fun s _ => .of_eq rfl
  | cons b rest ih =>
    intro s hf
    obtain ⟨hm, hp⟩ := receiveByte_spec b rest s
    exact (hp hf).trans (ih _ fun f h => hf f (hm f h))

/-! ### The end of a sent frame -/

theorem namedSame_empty (s : State) {t : State} (h : t.bands.queue = []) : NamedSame s t := by
  intro b hb
  rw [h] at hb
  exact nomatch hb

theorem namedSame_stepKept (s : State) {c : Instr} (hc : isTicketReq c = false) :
    StepKept (NamedSame s) c :=
  (namedSame_kept s hc).stepKept fun _ hq _ _ _ => namedSame_empty s hq

theorem frameSent_namedSame {s : State} (hr : s.runs = true)
    (hf : ∀ f ∈ s.link.buffer, writesProfiles (requestOf f) = false) : NamedSame s (frameSent s) := by
  have refl : NamedSame s s := fun _ _ => ⟨rfl, rfl⟩
  unfold frameSent
  split
  · exact refl
  · split
    · exact (namedSame_stepKept s (c := .transmitComplete) rfl).startPart rfl _ _ _ s.pins s refl
        (.inl rfl) hr
    · have ht := transmitNext_frame { s with link.sending := none }
      refine SameProfiles.namedSame (.trans (t := transmitNext { s with link.sending := none })
        (.of_eq ht.profiles) (serve_sameProfiles _ (fun f h => hf f ?_) _))
      rwa [ht.buffer] at h

theorem whenRuns_sameProfiles {s : State} {f : State → State} (h : SameProfiles s (f s)) :
    SameProfiles s (whenRuns s f) := by
  unfold whenRuns
  split
  · exact h
  · exact .of_eq rfl

/-- Settles O60: a command that takes no frame touches no named profile; of the others, a TICKET_REQ and the
frames of a reception write none. -/
theorem namedProfilesUnchanged : Obligations.NamedProfilesUnchanged := by
  unfold Obligations.NamedProfilesUnchanged
  intro c s t e hf
  change NamedSame s t
  have alone (ht : isTicketReq c = false) (hm : ∀ f, ¬mayTake c s f) : NamedSame s t := by
    obtain ⟨u, hu, hP⟩ := (namedSame_stepKept s ht).exec s (fun _ _ => ⟨rfl, rfl⟩)
      (fun f h => absurd h (hm f))
    rw [hu] at e
    cases e
    exact hP
  cases c
  case ticketReq tag p =>
    cases e
    exact (takeRequest_sameProfiles (c := .ticketReq tag p) rfl _ s).namedSame
  case frameReceived bytes =>
    cases e
    exact (whenRuns_sameProfiles (receiveBytes_sameProfiles bytes s hf)).namedSame
  case frameSyncReceived b =>
    cases e
    exact (whenRuns_sameProfiles (receiveBytes_sameProfiles [b] s hf)).namedSame
  case transmitComplete =>
    cases e
    unfold whenRuns
    split
    · next hr => exact frameSent_namedSame hr hf
    · exact fun _ _ => ⟨rfl, rfl⟩
  all_goals exact alone rfl fun _ h => h

end Sys2Proof.Machine

namespace Sys2Proof.Machine

/-! ## Profile records on the link -/

theorem enc32_length (v : Int) : (enc32 v).length = 4 := by
  unfold enc32
  split <;> exact leBytes_length ..

theorem fits32_iff (v : Int) : fits32 v = true ↔ -2147483648 ≤ v ∧ v ≤ 2147483647 := by
  simp only [fits32, Bool.and_eq_true, decide_eq_true_eq]
  exact Iff.rfl

/-- Table 11-2: four bytes spell the signed value that they were made of. -/
theorem dec32_enc32 {v : Int} (h : fits32 v = true) : dec32 (enc32 v) = v := by
  rw [enc32, if_pos h, dec32_leBytes, BitVec.toInt_ofInt]
  rw [fits32_iff] at h
  exact Int.bmod_eq_of_le (by omega) (by omega)

theorem encTable_length {α : Type} {n m : Nat} {f : α → List Byte} (hf : ∀ a, (f a).length = m)
    (v : Vector α n) : (encTable f v).length = n * m := by
  rw [encTable, length_flatMap_items hf, Vector.length_toList]

/-! ### The bytes at a place -/

theorem fieldAt_head {a : List Byte} {k m : Nat} (h : k + m ≤ a.length) (b : List Byte) :
    fieldAt (a ++ b) k m = fieldAt a k m := by
  rw [fieldAt, List.drop_append_of_le_length (by omega),
    List.take_append_of_le_length (by rw [List.length_drop]; omega), fieldAt]

theorem fieldAt_skip {a : List Byte} {n : Nat} (h : a.length = n) (b : List Byte) (k m : Nat) :
    fieldAt (a ++ b) (n + k) m = fieldAt b k m := by
  subst h
  rw [fieldAt, List.drop_length_add_append, fieldAt]

theorem fieldAt_whole {a : List Byte} {m : Nat} (h : a.length = m) (b : List Byte) :
    fieldAt (a ++ b) 0 m = a := by
  rw [fieldAt_head (by omega), fieldAt, List.drop_zero, ← h, List.take_length]

theorem fieldAt_fieldAt (bs : List Byte) (k n j : Nat) {m : Nat} (h : j + m ≤ n) :
    fieldAt (fieldAt bs k n) j m = fieldAt bs (k + j) m := by
  simp only [fieldAt, List.drop_take, List.drop_drop, List.take_take]
  congr 1
  omega

theorem fieldAt_flatMap {α : Type} {m : Nat} {f : α → List Byte} (hf : ∀ a, (f a).length = m)
    (l : List α) : ∀ (i : Nat) (h : i < l.length), fieldAt (l.flatMap f) (m * i) m = f l[i] := by
  induction l with
  | nil => exact fun i h => absurd h (Nat.not_lt_zero i)
  | cons a l ih =>
    intro i h
    rw [List.flatMap_cons]
    cases i with
    | zero => exact fieldAt_whole (hf a) _
    | succ i =>
      rw [Nat.mul_succ, Nat.add_comm, fieldAt_skip (hf a)]
      exact ih i (Nat.lt_of_succ_lt_succ h)

/-- The entries of a table stand one after another. -/
theorem fieldAt_encTable {α : Type} {n m : Nat} {f : α → List Byte} (hf : ∀ a, (f a).length = m)
    (v : Vector α n) (i : Fin n) : fieldAt (encTable f v) (m * i.val) m = f v[i] := by
  rw [encTable, fieldAt_flatMap hf _ i.val (by simp)]
  simp

theorem longAt_skip {a : List Byte} {n : Nat} (h : a.length = n) (b : List Byte) (k : Nat) :
    longAt (a ++ b) (n + k) = longAt b k := congrArg dec32 (fieldAt_skip h b k 4)

theorem longAt_enc32 {v : Int} (h : fits32 v = true) (b : List Byte) : longAt (enc32 v ++ b) 0 = v := by
  rw [longAt, fieldAt_whole (enc32_length v), dec32_enc32 h]

theorem longAt_row {n : Nat} {v : Vector Int n} {i : Fin n} (h : fits32 v[i] = true) (b : List Byte) :
    longAt (encTable enc32 v ++ b) (4 * i.val) = v[i] := by
  rw [longAt, fieldAt_head (by rw [encTable_length enc32_length]; omega),
    fieldAt_encTable enc32_length, dec32_enc32 h]

theorem longAt_nodes {n m : Nat} {v : Vector (Vector Int m) n} {i : Fin n} {k : Fin m}
    (h : fits32 (v[i])[k] = true) :
    longAt (encTable (encTable enc32) v) (m * 4 * i.val + 4 * k.val) = (v[i])[k] := by
  rw [longAt, ← fieldAt_fieldAt (n := m * 4) (h := by omega),
    fieldAt_encTable (encTable_length enc32_length), fieldAt_encTable enc32_length, dec32_enc32 h]

theorem encColour_length (p : ColourProfile) : (encColour p).length = 276 := by
  simp only [encColour, List.length_append, enc32_length, encTable_length enc32_length,
    encTable_length (encTable_length enc32_length)]

theorem encFabric_length (p : FabricProfile) : (encFabric p).length = 32 := by
  simp only [encFabric, List.length_append, enc32_length, encTable_length enc32_length]

theorem tab_eq {α : Type} {n : Nat} {f : Fin n → α} {v : Vector α n} (h : ∀ i : Fin n, f i = v[i]) :
    tab f = v := by
  refine Vector.ext fun i hi => ?_
  rw [tab_getElem]
  exact h ⟨i, hi⟩

/-- R89, Table 5-1: the fields stand in the order of the table, the nodes ink by ink (log 19). -/
theorem decColour_encColour {p : ColourProfile} (hT : fits32 p.tFloor = true)
    (hL : fits32 p.dLo = true) (hS : fits32 p.step = true)
    (hI : ∀ i : Fin 6, fits32 p.yRef[i] = true ∧ fits32 p.bMax[i] = true ∧
      ∀ k : Fin 9, fits32 (p.nodes[i])[k] = true) : decColour p.name (encColour p) = p := by
  have e : encColour p = enc32 p.tFloor ++ (enc32 p.dLo ++ (enc32 p.step ++ (encTable enc32 p.yRef ++
      (encTable enc32 p.bMax ++ encTable (encTable enc32) p.nodes)))) := by
    simp only [encColour, List.append_assoc]
  have past3 (k : Nat) (b : List Byte) :
      longAt (enc32 p.tFloor ++ (enc32 p.dLo ++ (enc32 p.step ++ b))) (12 + k) = longAt b k := by
    rw [show 12 + k = 4 + (4 + (4 + k)) by omega, longAt_skip (enc32_length _),
      longAt_skip (enc32_length _), longAt_skip (enc32_length _)]
  have yRefs : (encTable enc32 p.yRef).length = 24 := encTable_length enc32_length _
  have bMaxs : (encTable enc32 p.bMax).length = 24 := encTable_length enc32_length _
  have h0 : longAt (encColour p) 0 = p.tFloor := by rw [e, longAt_enc32 hT]
  have h1 : longAt (encColour p) 4 = p.dLo := by
    rw [e, longAt_skip (k := 0) (enc32_length _), longAt_enc32 hL]
  have h2 : longAt (encColour p) 8 = p.step := by
    rw [e, longAt_skip (n := 4) (k := 4) (enc32_length _), longAt_skip (k := 0) (enc32_length _),
      longAt_enc32 hS]
  have h3 : (tab fun i : Fin 6 => longAt (encColour p) (12 + 4 * i.val)) = p.yRef := by
    refine tab_eq fun i => ?_
    rw [e, past3, longAt_row (hI i).1]
  have h4 : (tab fun i : Fin 6 => longAt (encColour p) (36 + 4 * i.val)) = p.bMax := by
    refine tab_eq fun i => ?_
    rw [e, show 36 + 4 * i.val = 12 + (24 + 4 * i.val) by omega, past3, longAt_skip yRefs,
      longAt_row (hI i).2.1]
  have h5 : (tab fun i : Fin 6 => tab fun k : Fin 9 =>
      longAt (encColour p) (60 + 36 * i.val + 4 * k.val)) = p.nodes := by
    refine tab_eq fun i => tab_eq fun k => ?_
    rw [e, show 60 + 36 * i.val + 4 * k.val = 12 + (24 + (24 + (9 * 4 * i.val + 4 * k.val))) by omega,
      past3, longAt_skip yRefs, longAt_skip bMaxs, longAt_nodes ((hI i).2.2 k)]
  rw [decColour, h0, h1, h2, h3, h4, h5]

/-- R89, Table 5-2: the fields stand in the order of the table. -/
theorem decFabric_encFabric {p : FabricProfile} (hT : fits32 p.tSet = true) (hV : fits32 p.vRun = true)
    (hX : ∀ t : Fin 4, fits32 p.tension[t] = true) (hL : fits32 p.lTotal = true)
    (hD : fits32 p.dScorch = true) : decFabric p.name (encFabric p) = p := by
  have e : encFabric p = enc32 p.tSet ++ (enc32 p.vRun ++ (encTable enc32 p.tension ++
      (enc32 p.lTotal ++ (enc32 p.dScorch ++ [])))) := by
    simp only [encFabric, List.append_assoc, List.append_nil]
  have past2 (k : Nat) (b : List Byte) : longAt (enc32 p.tSet ++ (enc32 p.vRun ++ b)) (8 + k) =
      longAt b k := by
    rw [show 8 + k = 4 + (4 + k) by omega, longAt_skip (enc32_length _), longAt_skip (enc32_length _)]
  have tensions : (encTable enc32 p.tension).length = 16 := encTable_length enc32_length _
  have h0 : longAt (encFabric p) 0 = p.tSet := by rw [e, longAt_enc32 hT]
  have h1 : longAt (encFabric p) 4 = p.vRun := by
    rw [e, longAt_skip (k := 0) (enc32_length _), longAt_enc32 hV]
  have h2 : (tab fun t : Fin 4 => longAt (encFabric p) (8 + 4 * t.val)) = p.tension := by
    refine tab_eq fun t => ?_
    rw [e, past2, longAt_row (hX t)]
  have h3 : longAt (encFabric p) 24 = p.lTotal := by
    rw [e, past2 16, longAt_skip (k := 0) tensions, longAt_enc32 hL]
  have h4 : longAt (encFabric p) 28 = p.dScorch := by
    rw [e, past2 20, longAt_skip (n := 16) (k := 4) tensions, longAt_skip (k := 0) (enc32_length _),
      longAt_enc32 hD]
  rw [decFabric, h0, h1, h2, h3, h4]

/-! ### Clamping -/

theorem clampTo_clampTo {lo hi : Int} (h : lo ≤ hi) (v : Int) :
    clampTo lo hi (clampTo lo hi v) = clampTo lo hi v :=
  (clampTo_eq_self_iff h _).mpr ⟨le_clampTo h v, clampTo_le h v⟩

theorem clampColour_idem (p : ColourProfile) : clampColour (clampColour p) = clampColour p := by
  simp [clampColour, clampTo_clampTo]

theorem clampFabric_idem (p : FabricProfile) : clampFabric (clampFabric p) = clampFabric p := by
  simp [clampFabric, clampTo_clampTo]

/-- Settles O26: the layout read back place by place, and the ranges by the clamp. -/
theorem profileRecordsRoundTrip : Obligations.ProfileRecordsRoundTrip := by
  unfold Obligations.ProfileRecordsRoundTrip
  refine ⟨fun p hT hL hS hI => ⟨encColour_length p, decColour_encColour hT hL hS hI⟩,
    fun p hT hV hX hL hD => ⟨encFabric_length p, decFabric_encFabric hT hV hX hL hD⟩,
    fun p => ⟨clampColour_idem p, rfl, ?_⟩, fun p => ⟨clampFabric_idem p, rfl, ?_⟩⟩
  · simp [clampColour, le_clampTo, clampTo_le]
  · simp [clampFabric, le_clampTo, clampTo_le]

end Sys2Proof.Machine

namespace Sys2Proof.Machine

/-! ## Profile slots written and emptied -/

theorem slotRef_colour {slot : Nat} {c : Fin 16} (h : slot = c.val) :
    slotRef 0 slot = some (.colour c) := by
  rw [slotRef, h, asFin_val, Option.map_some]

theorem slotRef_fabric {slot : Nat} {f : Fin 8} (h : slot = f.val) :
    slotRef 1 slot = some (.fabric f) := by
  rw [slotRef, h, asFin_val, Option.map_some]

theorem colourUses_dequeue (s : State) (c : Fin 16) : colourUses (dequeue s) c = colourUses s c := by
  rw [colourUses, dequeue_bands, colourUses]

theorem fabricUses_dequeue (s : State) (f : Fin 8) : fabricUses (dequeue s) f = fabricUses s f := by
  rw [fabricUses, dequeue_bands, fabricUses]

theorem slotInUse_dequeue (s : State) (r : SlotRef) : slotInUse (dequeue s) r = slotInUse s r := by
  cases r with
  | colour c => rw [slotInUse, colourInUse, colourUses_dequeue, slotInUse, colourInUse]
  | fabric f => rw [slotInUse, fabricInUse, fabricUses_dequeue, dequeue_profiles, slotInUse, fabricInUse]

theorem slotOccupied_dequeue (s : State) (r : SlotRef) :
    slotOccupied (dequeue s) r = slotOccupied s r := by
  cases r <;> simp only [slotOccupied, dequeue_profiles]

/-- R85, check 5: every character is printable. -/
theorem goodName_of_printable {name : List Byte} (h : ∀ b ∈ name, 0x20 ≤ b.toNat ∧ b.toNat ≤ 0x7E) :
    goodName name = true := by
  rw [goodName, List.all_eq_true]
  intro b hb
  rw [cleanChar, if_pos (h b hb), beq_self_eq_true]

/-- R85, R86: a whole record with a name is refused with IN_USE or fills the slot. -/
theorem writeRecord_whole {r : SlotRef} {m : Nat} {name fields : List Byte} (hm : name.length = m)
    (h16 : name.length ≤ 16) (hf : fields.length = slotBytes r)
    (hc : ∀ b ∈ name, 0x20 ≤ b.toNat ∧ b.toNat ≤ 0x7E) (s : State) :
    writeRecord r m (name ++ fields) s =
      if slotInUse s r then refuse .inUse s else storeProfile r name fields s := by
  subst hm
  have hl : (name ++ fields).length = name.length + slotBytes r := by rw [List.length_append, hf]
  rw [writeRecord, if_neg (Nat.not_lt.mpr h16), if_neg (not_not.mpr hl), List.take_left,
    List.drop_left, goodName_of_printable hc, if_neg (by decide)]

theorem profileWriteAnswer_slot {k slot : Byte} {r : SlotRef} (h : slotRef k.toNat slot.toNat = some r)
    (m : Byte) (rest : List Byte) (s : State) :
    profileWriteAnswer (k :: slot :: m :: rest) s = writeRecord r m.toNat rest s := by
  rw [profileWriteAnswer, h]

theorem profileEraseAnswer_slot {k slot : Byte} {r : SlotRef} (h : slotRef k.toNat slot.toNat = some r)
    (s : State) : profileEraseAnswer [k, slot] s =
      if slotOccupied s r = false then refuse .noSuch s
      else if slotInUse s r then refuse .inUse s
      else ⟨emptySlot r s, .ok, []⟩ := by
  rw [profileEraseAnswer, withLength_eq (n := 2) rfl, byteAt_succ, byteAt_zero, byteAt_zero, h]

theorem replyPayload_clamping (p : Prop) [Decidable p] :
    replyPayload (if p then .ok else .clamped) [] = [if p then 0 else 1] := by
  split <;> rfl

/-- R85, R86: PROFILE_WRITE with a whole record, by the use of its slot. -/
theorem exec_profileWrite_whole {tag k slot m : Byte} {name fields : List Byte} {r : SlotRef} {s : State}
    (hr : slotRef k.toNat slot.toNat = some r) (hm : name.length = m.toNat) (h16 : name.length ≤ 16)
    (hf : fields.length = slotBytes r) (hc : ∀ b ∈ name, 0x20 ≤ b.toNat ∧ b.toNat ≤ 0x7E)
    (ht : takeable ⟨0x06, tag, k :: slot :: m :: (name ++ fields)⟩ s = true) :
    (slotInUse s r = true → exec (.profileWrite tag (k :: slot :: m :: (name ++ fields))) s =
      .next (putReply ⟨0x86, tag, [8]⟩ (dequeue s))) ∧
    (slotInUse s r = false → exec (.profileWrite tag (k :: slot :: m :: (name ++ fields))) s =
      .next (putReply ⟨0x86, tag, replyPayload (storeProfile r name fields (dequeue s)).status []⟩
        (storeProfile r name fields (dequeue s)).state)) := by
  have ha : profileWriteAnswer (k :: slot :: m :: (name ++ fields)) (dequeue s) =
      if slotInUse s r then refuse .inUse (dequeue s) else storeProfile r name fields (dequeue s) := by
    rw [profileWriteAnswer_slot hr, writeRecord_whole hm h16 hf hc, slotInUse_dequeue]
  refine ⟨fun hu => ?_, fun hu => ?_⟩ <;> rw [hu] at ha
  · exact congrArg Host.Outcome.next (takeRequest_answered ht ha)
  · refine congrArg Host.Outcome.next (takeRequest_answered ht (ha.trans ?_))
    cases r <;> rfl

/-- R88: PROFILE_ERASE of a slot, by its content and its use. -/
theorem exec_profileErase_slot {tag k slot : Byte} {r : SlotRef} {s : State}
    (hr : slotRef k.toNat slot.toNat = some r) (ht : takeable ⟨0x08, tag, [k, slot]⟩ s = true) :
    exec (.profileErase tag [k, slot]) s =
      if slotOccupied s r = false then .next (putReply ⟨0x88, tag, [4]⟩ (dequeue s))
      else if slotInUse s r = true then .next (putReply ⟨0x88, tag, [8]⟩ (dequeue s))
      else .next (putReply ⟨0x88, tag, [0]⟩ (emptySlot r (dequeue s))) := by
  have ha := profileEraseAnswer_slot hr (dequeue s)
  rw [slotOccupied_dequeue, slotInUse_dequeue] at ha
  by_cases ho : slotOccupied s r = false
  · rw [if_pos ho] at ha ⊢
    exact congrArg Host.Outcome.next (takeRequest_answered ht ha)
  · rw [if_neg ho] at ha ⊢
    by_cases hu : slotInUse s r = true
    · rw [if_pos hu] at ha ⊢
      exact congrArg Host.Outcome.next (takeRequest_answered ht ha)
    · rw [if_neg hu] at ha ⊢
      exact congrArg Host.Outcome.next (takeRequest_answered ht ha)

/-- Settles O25: the checks of R85 and R88 up to IN_USE, and the slot that is then written or emptied. -/
theorem profileSlotsWritten : Obligations.ProfileSlotsWritten := by
  unfold Obligations.ProfileSlotsWritten
  intro tag slot m name fields s d
  refine ⟨fun c hs hm h16 hf hc ht => ?_, fun f hs hm h16 hf hc ht => ?_, fun c hs ht => ?_,
    fun f hs ht => ?_⟩
  · obtain ⟨used, free⟩ := exec_profileWrite_whole (k := 0) (slotRef_colour hs) hm h16 hf hc ht
    refine ⟨used, fun hu => (free hu).trans ?_⟩
    simp only [storeProfile, replyPayload_clamping, dequeue_profiles, d]
  · obtain ⟨used, free⟩ := exec_profileWrite_whole (k := 1) (slotRef_fabric hs) hm h16 hf hc ht
    refine ⟨used, fun hu => (free hu).trans ?_⟩
    simp only [storeProfile, replyPayload_clamping, dequeue_profiles, d]
  · rw [exec_profileErase_slot (k := 0) (slotRef_colour hs) ht]
    simp only [slotOccupied, slotInUse, emptySlot, dequeue_profiles, Option.isSome_eq_false_iff,
      Option.isNone_iff_eq_none, d]
  · rw [exec_profileErase_slot (k := 1) (slotRef_fabric hs) ht]
    simp only [slotOccupied, slotInUse, emptySlot, dequeue_profiles, Option.isSome_eq_false_iff,
      Option.isNone_iff_eq_none, d]

end Sys2Proof.Machine

namespace Sys2Proof.Machine

/-! ## Requests that read -/

theorem encFlag_eq (b : Bool) : encFlag b = [if b = true then 1 else 0] := by cases b <;> rfl

theorem encFlag_not (b : Bool) : encFlag (!b) = [if b = true then 0 else 1] := by cases b <;> rfl

theorem enc8_byte {b : Byte} {n : Nat} (h : b.toNat = n) : enc8 n = [b] := by
  rw [← h, enc8, leBytes, BitVec.ofNat_toNat, BitVec.setWidth_eq, leBytes]

/-- A table is encoded entry by entry, in the order of its indices. -/
theorem encTable_eq {α : Type} {n : Nat} (f : α → List Byte) :
    encTable (n := n) f = fun v => (List.finRange n).flatMap fun i => f v[i] := by
  funext v
  have e : v.toList = (List.finRange n).map fun i => v[i] := by
    refine List.ext_getElem (by simp) fun i h1 h2 => ?_
    simp
  rw [encTable, e, List.flatMap_map]

/-- R198: a request that reads is answered with OK and its items, and only its frame has gone. -/
theorem takeRequest_read {f : Frame} {handle : List Byte → State → Answer} {items : List Byte} {s : State}
    (h : takeable f s = true) (ha : handle f.payload (dequeue s) = readOut items (dequeue s)) :
    takeRequest f handle s = putReply ⟨f.kind + 0x80, f.tag, 0 :: items⟩ (dequeue s) :=
  takeRequest_answered h ha

/-! ### What the readers see without the frame -/

theorem dequeue_start (s : State) : (dequeue s).link.cause = s.link.cause ∧
    (dequeue s).link.priorMode = s.link.priorMode ∧
    (dequeue s).link.storeState = s.link.storeState := by
  unfold dequeue restartSilence
  split
  · split <;> exact ⟨rfl, rfl, rfl⟩
  · exact ⟨rfl, rfl, rfl⟩

theorem findBand_dequeue (s : State) (id : Nat) : findBand (dequeue s) id = findBand s id := by
  rw [findBand, dequeue_bands, findBand]

theorem midDistance_dequeue (s : State) (b : Band) : midDistance (dequeue s) b = midDistance s b := by
  rw [midDistance, leadDistance, dequeue_line, midDistance, leadDistance]

theorem encBand_dequeue (s : State) (b : Band) : encBand (dequeue s) b = encBand s b := by
  rw [encBand, encStart, dequeue_line, encBand, encStart]

theorem queueEntry_dequeue (s : State) : queueEntry (dequeue s) = queueEntry s := by
  funext b
  rw [queueEntry, midDistance_dequeue, queueEntry]

theorem encLevel_dequeue (s : State) (l : Fin 16) : encLevel (dequeue s) l = encLevel s l := by
  simp only [encLevel, levelState, dequeue_react]

theorem profileItems_dequeue (s : State) (r : SlotRef) :
    profileItems (dequeue s) r = profileItems s r := by
  cases r <;> simp only [profileItems, dequeue_profiles, colourUses_dequeue, fabricUses_dequeue]

/-! ### The requests -/

theorem helloItems_dequeue (s : State) : helloItems (dequeue s) = helloItems s := by
  obtain ⟨hc, hp, hs⟩ := dequeue_start s
  rw [helloItems, storeBusy, hc, hp, hs, dequeue_events, dequeue_nvm, helloItems, storeBusy]

/-- R204: HELLO's items with its flags written out. -/
theorem helloItems_eq (s : State) : 0 :: helloItems s =
    [0, 0x56, 0x4B, 0x53, 0x2D, 0x36, 0x31, 0x34, 2, BitVec.ofNat 8 s.link.cause.code] ++
      encOption (fun m => enc8 (LineMode.code m)) s.link.priorMode ++
      [if s.events.fault.kinds = 0 then 0 else 1, BitVec.ofNat 8 s.link.storeState.code,
        if s.nvm.writing = none then 0 else 1] := by
  have hf : encFlag (!s.events.fault.isEmpty) = [if s.events.fault.kinds = 0 then 0 else 1] := by
    simp only [encFlag_not, FaultRecord.isEmpty, beq_iff_eq]
  have hb : encFlag (storeBusy s) = [if s.nvm.writing = none then 0 else 1] := by
    unfold storeBusy
    cases s.nvm.writing <;> rfl
  simp only [helloItems, hf, hb, List.append_assoc]
  rfl

/-- R89: PROFILE_READ of a slot, empty or occupied. -/
theorem exec_profileRead_slot {tag k slot : Byte} {r : SlotRef} {s : State}
    (hr : slotRef k.toNat slot.toNat = some r) (ht : takeable ⟨0x07, tag, [k, slot]⟩ s = true) :
    (profileItems s r = none →
      exec (.profileRead tag [k, slot]) s = .next (putReply ⟨0x87, tag, [4]⟩ (dequeue s))) ∧
    ∀ items, profileItems s r = some items →
      exec (.profileRead tag [k, slot]) s = .next (putReply ⟨0x87, tag, 0 :: items⟩ (dequeue s)) := by
  have taken (a : Answer) (h : profileReadAnswer [k, slot] (dequeue s) = a) :
      exec (.profileRead tag [k, slot]) s =
        .next (putReply ⟨0x87, tag, replyPayload a.status a.items⟩ a.state) :=
    congrArg Host.Outcome.next (takeRequest_answered ht h)
  refine ⟨fun h => taken (refuse .noSuch (dequeue s)) ?_,
    fun items h => taken (readOut items (dequeue s)) ?_⟩
  all_goals
    rw [profileReadAnswer, withLength_eq (n := 2) rfl, byteAt_succ, byteAt_zero, byteAt_zero, hr]
    dsimp only
    rw [profileItems_dequeue, h]

/-- R119: BAND_READ of an id. -/
theorem exec_bandRead_id {tag i0 i1 : Byte} {s : State}
    (ht : takeable ⟨0x0D, tag, [i0, i1]⟩ s = true) :
    (findBand s (i0.toNat + 256 * i1.toNat) = none →
      exec (.bandRead tag [i0, i1]) s = .next (putReply ⟨0x8D, tag, [4]⟩ (dequeue s))) ∧
    ∀ b, findBand s (i0.toNat + 256 * i1.toNat) = some b →
      exec (.bandRead tag [i0, i1]) s =
        .next (putReply ⟨0x8D, tag, 0 :: encBand s b⟩ (dequeue s)) := by
  have taken (a : Answer) (h : bandReadAnswer [i0, i1] (dequeue s) = a) :
      exec (.bandRead tag [i0, i1]) s =
        .next (putReply ⟨0x8D, tag, replyPayload a.status a.items⟩ a.state) :=
    congrArg Host.Outcome.next (takeRequest_answered ht h)
  refine ⟨fun h => taken (refuse .noSuch (dequeue s)) ?_,
    fun b h => taken (readOut (encBand s b) (dequeue s)) ?_⟩
  all_goals rw [bandReadAnswer, withLength_eq (n := 2) rfl, wordAt_zero, findBand_dequeue, h]
  exact congrArg (readOut · _) (encBand_dequeue s b)

theorem exec_queueRead {tag : Byte} {s : State} (ht : takeable ⟨0x0E, tag, []⟩ s = true) :
    exec (.queueRead tag []) s = .next (putReply ⟨0x8E, tag, 0 :: (enc32 s.line.position ++
      enc16 s.bands.queue.length ++ s.bands.queue.flatMap (queueEntry s))⟩ (dequeue s)) := by
  have ha : queueReadAnswer [] (dequeue s) = readOut (enc32 s.line.position ++
      enc16 s.bands.queue.length ++ s.bands.queue.flatMap (queueEntry s)) (dequeue s) := by
    rw [queueReadAnswer, withLength_eq (n := 0) rfl, dequeue_line, dequeue_bands, queueEntry_dequeue]
  exact congrArg Host.Outcome.next (takeRequest_read ht ha)

theorem exec_historyRead {tag : Byte} {s : State} (ht : takeable ⟨0x0F, tag, []⟩ s = true) :
    exec (.historyRead tag []) s =
      .next (putReply ⟨0x8F, tag, 0 :: encTable encRing s.bands.history⟩ (dequeue s)) := by
  have ha : historyReadAnswer [] (dequeue s) =
      readOut (encTable encRing s.bands.history) (dequeue s) := by
    rw [historyReadAnswer, withLength_eq (n := 0) rfl, dequeue_bands]
  exact congrArg Host.Outcome.next (takeRequest_read ht ha)

theorem exec_watchRead {tag n : Byte} {w : Fin 16} {s : State} (hn : n.toNat = w.val)
    (ht : takeable ⟨0x15, tag, [n]⟩ s = true) : exec (.watchRead tag [n]) s =
      .next (putReply ⟨0x95, tag, 0 :: encWatch s.react.watches[w]⟩ (dequeue s)) := by
  have ha : watchReadAnswer [n] (dequeue s) = readOut (encWatch s.react.watches[w]) (dequeue s) := by
    rw [watchReadAnswer, withLength_eq (n := 1) rfl, byteAt_zero, hn, asFin_val, dequeue_react]
  exact congrArg Host.Outcome.next (takeRequest_read ht ha)

theorem exec_levelRead {tag n : Byte} {l : Fin 16} {s : State} (hn : n.toNat = l.val)
    (ht : takeable ⟨0x17, tag, [n]⟩ s = true) : exec (.levelRead tag [n]) s =
      .next (putReply ⟨0x97, tag, 0 :: encLevel s l⟩ (dequeue s)) := by
  have ha : levelReadAnswer [n] (dequeue s) = readOut (encLevel s l) (dequeue s) := by
    rw [levelReadAnswer, withLength_eq (n := 1) rfl, byteAt_zero, hn, asFin_val]
    exact congrArg (readOut · _) (encLevel_dequeue s l)
  exact congrArg Host.Outcome.next (takeRequest_read ht ha)

theorem exec_hello {tag : Byte} {s : State} (ht : takeable ⟨0x01, tag, []⟩ s = true) :
    exec (.hello tag []) s = .next (putReply ⟨0x81, tag, 0 :: helloItems s⟩ (dequeue s)) := by
  have ha : helloAnswer [] (dequeue s) = readOut (helloItems s) (dequeue s) := by
    rw [helloAnswer, withLength_eq (n := 0) rfl, helloItems_dequeue]
  exact congrArg Host.Outcome.next (takeRequest_read ht ha)

theorem exec_eventsRead {tag : Byte} {s : State} (ht : takeable ⟨0x19, tag, []⟩ s = true) :
    exec (.eventsRead tag []) s = .next (putReply ⟨0x99, tag, 0 ::
      (encSet s.events.set ++ encSet s.events.mask ++ enc16 s.events.discarded)⟩ (dequeue s)) := by
  have ha : eventsReadAnswer [] (dequeue s) = readOut
      (encSet s.events.set ++ encSet s.events.mask ++ enc16 s.events.discarded) (dequeue s) := by
    rw [eventsReadAnswer, withLength_eq (n := 0) rfl, dequeue_events]
  exact congrArg Host.Outcome.next (takeRequest_read ht ha)

theorem exec_faultRead {tag : Byte} {s : State} (ht : takeable ⟨0x1C, tag, []⟩ s = true) :
    exec (.faultRead tag []) s =
      .next (putReply ⟨0x9C, tag, 0 :: encFaultRecord s.events.fault⟩ (dequeue s)) := by
  have ha : faultReadAnswer [] (dequeue s) =
      readOut (encFaultRecord s.events.fault) (dequeue s) := by
    rw [faultReadAnswer, withLength_eq (n := 0) rfl, dequeue_events]
  exact congrArg Host.Outcome.next (takeRequest_read ht ha)

/-- Settles O44: each request answers the items of its encoder, and each encoder is written out. -/
theorem readingRequestsAnswered : Obligations.ReadingRequestsAnswered := by
  unfold Obligations.ReadingRequestsAnswered
  refine ⟨fun tag s => ⟨fun ht => ?_, fun slot c hs ht => ?_, fun slot f hs ht => ?_,
    fun i0 i1 ht => exec_bandRead_id ht, fun ht => exec_queueRead ht, fun ht => ?_,
    fun n w hn => ⟨fun ht => exec_watchRead hn ht, fun ht => exec_levelRead hn ht⟩,
    fun ht => exec_eventsRead ht, fun ht => exec_faultRead ht⟩, fun s b => ?_, fun s l => ?_,
    fun k n p => rfl, fun band seq f c target t => ?_, fun band seq f c target acc ratios m => ?_,
    fun l cause p m => ?_⟩
  · rw [exec_hello ht, helloItems_eq]
  · obtain ⟨absent, present⟩ := exec_profileRead_slot (k := 0) (slotRef_colour hs) ht
    refine ⟨fun h => absent (by rw [profileItems, h, Option.map_none]), fun p h => ?_⟩
    rw [present _ (by rw [profileItems, h, Option.map_some]), enc8_byte hs]
    rfl
  · obtain ⟨absent, present⟩ := exec_profileRead_slot (k := 1) (slotRef_fabric hs) ht
    refine ⟨fun h => absent (by rw [profileItems, h, Option.map_none]), fun p h => ?_⟩
    rw [present _ (by rw [profileItems, h, Option.map_some]), enc8_byte hs]
    rfl
  · rw [exec_historyRead ht, encTable_eq]
    rfl
  · simp only [encBand, encStart, encTable_eq, encLaneTicket]
    rfl
  · simp only [encLevel, encFlag_eq]
    rfl
  · simp only [Report.frame, Report.payload, encTable_eq]
    rfl
  · simp only [Report.frame, Report.payload, encTable_eq]
    rfl
  · cases cause <;> rfl

end Sys2Proof.Machine

namespace Sys2Proof.Machine

/-! ## The lot at a place -/

/-- R93: the newest band that counts at a place decides. -/
theorem newestAt_newest {s : State} {place : Int} {before after : List Band} {b : Band}
    (hq : s.bands.queue = before ++ b :: after) (hb : countsAt s place b = true)
    (ha : ∀ x ∈ after, countsAt s place x = false) : newestAt s place = some b := by
  have hn : after.reverse.find? (countsAt s place) = none := by
    rw [List.find?_eq_none]
    intro x hx
    rw [ha x (List.mem_reverse.mp hx)]
    exact Bool.false_ne_true
  rw [newestAt, hq, List.reverse_append, List.reverse_cons, List.append_assoc, List.find?_append, hn,
    Option.none_or, List.singleton_append, List.find?_cons_of_pos hb]

theorem newestAt_none {s : State} {place : Int} (h : ∀ x ∈ s.bands.queue, countsAt s place x = false) :
    newestAt s place = none := by
  rw [newestAt, List.find?_eq_none]
  intro x hx
  rw [h x (List.mem_reverse.mp hx)]
  exact Bool.false_ne_true

theorem lotAt_some {s : State} {place : Int} {b : Band} (h : newestAt s place = some b) :
    lotAt s place = (some b.lot, b.id) := by rw [lotAt, h]

theorem lotAt_none {s : State} {place : Int} (h : newestAt s place = none) :
    lotAt s place = (s.profiles.current, 0) := by rw [lotAt, h]

/-- R93, R103: a started band counts from the place on, up to P_exit. -/
theorem countsAt_iff {s : State} {b : Band} {p : Int} (h : b.start = some p) (place : Int) :
    countsAt s place b = true ↔
      place ≤ s.line.position - p - Int.fdiv b.length 2 ∧
        s.line.position - p - Int.fdiv b.length 2 < s.line.pIn + s.line.lWrap + s.line.pExitMargin := by
  have hm : midDistance s b = some (s.line.position - p - Int.fdiv b.length 2) := by
    rw [midDistance, leadDistance, h]
    rfl
  rw [countsAt, hm, Bool.and_eq_true, decide_eq_true_eq, decide_eq_true_eq]
  exact And.comm

/-! ## A changed lot -/

/-- R95: the heat lot is stored, and the heat loops and their limits follow it. -/
def followHeatLot (l : Option Lot) (s : State) : State :=
  raiseLimits (refreshHeatSetpoints { s with profiles.heat := l })

/-- R95: the nip lot is stored, and the tension loops and the line follow it. -/
def followNipLot (l : Option Lot) (s : State) : State :=
  nipLotAtLine s.profiles.nip l (refreshTensionSetpoints { s with profiles.nip := l })

theorem findHeatLotBy_eq (raising : EventKind → Nat → State → State) (s : State) :
    findHeatLotBy raising s =
      if (lotAt s (heatPlace s)).1 = s.profiles.heat then s
      else lotEvent raising .lotAtHeat (lotAt s (heatPlace s)).1 (lotAt s (heatPlace s)).2
        (followHeatLot (lotAt s (heatPlace s)).1 s) := rfl

theorem findNipLotBy_eq (raising : EventKind → Nat → State → State) (s : State) :
    findNipLotBy raising s =
      if (lotAt s s.line.pIn).1 = s.profiles.nip then s
      else lotEvent raising .lotAtNip (lotAt s s.line.pIn).1 (lotAt s s.line.pIn).2
        (followNipLot (lotAt s s.line.pIn).1 s) := rfl

theorem lotEvent_present (raising : EventKind → Nat → State → State) (k : EventKind) {l : Option Lot}
    (h : l ≠ none) (band : Nat) (s : State) : lotEvent raising k l band s = raising k band s := by
  obtain ⟨x, rfl⟩ := Option.ne_none_iff_exists'.mp h
  rfl

/-- A way of raising an event that raises none. -/
theorem lotEvent_quiet (k : EventKind) (l : Option Lot) (band : Nat) (s : State) :
    lotEvent (fun _ _ x => x) k l band s = s := by
  cases l <;> rfl

/-- R94: the event of a lot that is recorded leaves the profiles, the loops and the line as they are. -/
theorem lotEvent_record_units (k : EventKind) (l : Option Lot) (band : Nat) (s : State) :
    (lotEvent record k l band s).profiles = s.profiles ∧
      (lotEvent record k l band s).loops = s.loops ∧ (lotEvent record k l band s).line = s.line ∧
      (l ≠ none → hasKind (lotEvent record k l band s).events.set k = true) := by
  cases l with
  | none => exact ⟨rfl, rfl, rfl, fun h => absurd rfl h⟩
  | some l =>
    obtain ⟨hline, -, -, -, hloops, -, -, -, -, -, -, hset⟩ := record_units k band s
    exact ⟨(record_frame k band s).profiles, hloops, hline, fun _ => hset⟩

/-- R94: a finding that ends with another lot raises its event on the state that a silent one leaves. -/
theorem lotEvent_raised {P : Prop} [Decidable P] (raising : EventKind → Nat → State → State) (k : EventKind)
    (l : Option Lot) (band : Nat) (s t : State) :
    (if P then s else lotEvent raising k l band t) =
      if l ≠ none ∧ ¬P then
        raising k band (if P then s else lotEvent (fun _ _ x => x) k l band t)
      else if P then s else lotEvent (fun _ _ x => x) k l band t := by
  rw [lotEvent_quiet]
  by_cases hP : P
  · rw [if_pos hP, if_pos hP, if_neg (fun h => h.2 hP)]
  · rw [if_neg hP, if_neg hP]
    cases l with
    | none => rw [if_neg (fun h => h.1 rfl)]; rfl
    | some l => rw [if_pos ⟨Option.some_ne_none l, hP⟩]; rfl

/-! ### The heat lot -/

theorem followHeatLot_profiles (l : Option Lot) (s : State) :
    (followHeatLot l s).profiles = { s.profiles with heat := l } :=
  ((refreshHeatSetpoints_frame _).trans (raiseLimits_frame _)).profiles

/-- R66, R95: without the heat hold the heat setpoints are those of the lot's fabric. -/
theorem followHeatLot_setpoint {s : State} (h : s.line.heatHold = false) (l : Lot) {k : Fin 10}
    (hk : k.val < 6) :
    ((followHeatLot (some l) s).loops.loops[k]).setpoint = (fabricOf s l.fabric).tSet := by
  rw [followHeatLot, raiseLimits_loops, refreshHeatSetpoints_setpoint, if_pos hk, setpointOf_heat hk]
  exact if_neg (by rw [h]; exact Bool.false_ne_true)

theorem findHeatLot_same {s : State} (h : (lotAt s (heatPlace s)).1 = s.profiles.heat) :
    findHeatLot s = s := by
  rw [findHeatLot, findHeatLotBy_eq, if_pos h]

/-- R94, R95: another heat lot is stored, its event raised, and the heat loops follow it. -/
theorem findHeatLot_changed {s : State} (h : (lotAt s (heatPlace s)).1 ≠ s.profiles.heat) :
    (findHeatLot s).profiles = { s.profiles with heat := (lotAt s (heatPlace s)).1 } ∧
      ∀ l, (lotAt s (heatPlace s)).1 = some l →
        hasKind (findHeatLot s).events.set .lotAtHeat = true ∧
        (s.line.heatHold = false → ∀ k : Fin 10, k.val < 6 →
          ((findHeatLot s).loops.loops[k]).setpoint = (fabricOf s l.fabric).tSet) := by
  rw [findHeatLot, findHeatLotBy_eq, if_neg h]
  generalize (lotAt s (heatPlace s)).1 = x
  obtain ⟨hp, hl, -, he⟩ := lotEvent_record_units .lotAtHeat x (lotAt s (heatPlace s)).2
    (followHeatLot x s)
  refine ⟨hp.trans (followHeatLot_profiles x s), ?_⟩
  rintro l rfl
  refine ⟨he (Option.some_ne_none l), fun hh k hk => ?_⟩
  rw [hl]
  exact followHeatLot_setpoint hh l hk

/-! ### The nip lot -/

theorem loopSpan_spanLoop (x : Fin 4) : loopSpan (spanLoop x) = some x := by
  have h : ¬(spanLoop x).val < 6 := by simp [spanLoop]
  rw [loopSpan, if_neg h, show (spanLoop x).val - 6 = x.val by simp [spanLoop], asFin_val]

theorem spanLoop_not_heat (x : Fin 4) : ¬isHeatLoop (spanLoop x) = true := by
  simp [isHeatLoop, spanLoop]

theorem nipLotAtLine_loops (old new : Option Lot) (s : State) :
    (nipLotAtLine old new s).loops = s.loops := by
  unfold nipLotAtLine
  dsimp only
  split
  · rfl
  · next v _ =>
    split
    · obtain ⟨-, -, -, hl, -⟩ := setLineTarget_spec v .rampRate s
      exact hl
    · rfl

/-- R14: the run speed of a new nip lot becomes the target. -/
theorem nipLotAtLine_taken {old : Option Lot} {new : Lot} {s : State} (hm : s.line.mode = .running)
    (hp : s.line.phase = .ramping ∨ s.line.phase = .steady)
    (hv : (old.map fun l => (fabricOf s l.fabric).vRun) ≠ some (fabricOf s new.fabric).vRun) :
    nipLotAtLine old (some new) s =
      rampPhase (setLineTarget (fabricOf s new.fabric).vRun .rampRate s) := by
  rw [nipLotAtLine]
  dsimp only [Option.map_some]
  rw [if_pos ⟨hm, hp, hv⟩]

theorem followNipLot_profiles (l : Option Lot) (s : State) :
    (followNipLot l s).profiles = { s.profiles with nip := l } := (nipLotAtLine_frame ..).profiles

/-- R66, R95: the tension setpoints are those of the lot's fabric. -/
theorem followNipLot_setpoint (s : State) (l : Lot) (x : Fin 4) :
    ((followNipLot (some l) s).loops.loops[spanLoop x]).setpoint = (fabricOf s l.fabric).tension[x] := by
  have e : ((refreshTensionSetpoints { s with profiles.nip := some l }).loops.loops[spanLoop x]).setpoint =
      setpointOf { s with profiles.nip := some l } (spanLoop x) := by
    simp only [refreshTensionSetpoints, Fin.getElem_fin, tab_getElem]
    exact congrArg LoopRec.setpoint (if_neg (spanLoop_not_heat x))
  rw [followNipLot, nipLotAtLine_loops, e, setpointOf, loopSpan_spanLoop]
  rfl

/-- R14, R95: in a run past ENGAGING another run speed becomes the line's own target. -/
theorem followNipLot_line {s : State} (l : Lot) (hm : s.line.mode = .running)
    (hp : s.line.phase = .ramping ∨ s.line.phase = .steady)
    (hv : (s.profiles.nip.map fun o => (fabricOf s o.fabric).vRun) ≠ some (fabricOf s l.fabric).vRun) :
    (followNipLot (some l) s).line.target = clampTo 0 s.line.vMax (fabricOf s l.fabric).vRun ∧
      (followNipLot (some l) s).line.owner = .line ∧
      (followNipLot (some l) s).line.rateSource = .rampRate := by
  rw [followNipLot, nipLotAtLine_taken (s := refreshTensionSetpoints { s with profiles.nip := some l })
    hm hp hv]
  unfold rampPhase
  dsimp only
  rw [(setLineTarget_spec ..).2.1]
  exact ⟨rfl, rfl, rfl⟩

theorem findNipLot_same {s : State} (h : (lotAt s s.line.pIn).1 = s.profiles.nip) : findNipLot s = s := by
  rw [findNipLot, findNipLotBy_eq, if_pos h]

/-- R94, R95: another nip lot is stored, its event raised, and the tension loops and the line follow it. -/
theorem findNipLot_changed {s : State} (h : (lotAt s s.line.pIn).1 ≠ s.profiles.nip) :
    (findNipLot s).profiles = { s.profiles with nip := (lotAt s s.line.pIn).1 } ∧
      ∀ l, (lotAt s s.line.pIn).1 = some l →
        hasKind (findNipLot s).events.set .lotAtNip = true ∧
        (∀ x : Fin 4, ((findNipLot s).loops.loops[spanLoop x]).setpoint =
          (fabricOf s l.fabric).tension[x]) ∧
        (s.line.mode = .running → s.line.phase = .ramping ∨ s.line.phase = .steady →
          (s.profiles.nip.map fun o => (fabricOf s o.fabric).vRun) ≠ some (fabricOf s l.fabric).vRun →
          (findNipLot s).line.target = clampTo 0 s.line.vMax (fabricOf s l.fabric).vRun ∧
          (findNipLot s).line.owner = .line ∧ (findNipLot s).line.rateSource = .rampRate) := by
  rw [findNipLot, findNipLotBy_eq, if_neg h]
  generalize (lotAt s s.line.pIn).1 = x
  obtain ⟨hp, hl, hn, he⟩ := lotEvent_record_units .lotAtNip x (lotAt s s.line.pIn).2
    (followNipLot x s)
  refine ⟨hp.trans (followNipLot_profiles x s), ?_⟩
  rintro l rfl
  rw [hl, hn]
  exact ⟨he (Option.some_ne_none l), followNipLot_setpoint s l, followNipLot_line l⟩

/-! ## LOT -/

/-- R91: LOT by the fabric slot that it names. -/
theorem exec_lot {tag f : Byte} {s : State} (ht : takeable ⟨0x05, tag, [f]⟩ s = true) :
    (8 ≤ f.toNat → exec (.lot tag [f]) s = .next (putReply ⟨0x85, tag, [11]⟩ (dequeue s))) ∧
    ∀ slot : Fin 8, f.toNat = slot.val →
      (s.profiles.fabric[slot] = none →
        exec (.lot tag [f]) s = .next (putReply ⟨0x85, tag, [4]⟩ (dequeue s))) ∧
      (s.profiles.fabric[slot] ≠ none →
        exec (.lot tag [f]) s = .next (putReply
          ⟨0x85, tag, 0 :: leBytes 2 (nextNumber s.profiles.seqCounter)⟩
          (findLots (commit (dequeue s) (declareLot slot (dequeue s)))))) := by
  have taken {t : State} {st : Status} {items : List Byte}
      (h : lotAnswer [f] (dequeue s) = ⟨t, st, items⟩) :
      exec (.lot tag [f]) s = .next (putReply ⟨0x85, tag, replyPayload st items⟩ t) :=
    congrArg Host.Outcome.next (takeRequest_answered ht h)
  refine ⟨fun h => taken (st := .range) (items := []) ?_, fun slot hs =>
    ⟨fun h => taken (st := .noSuch) (items := []) ?_, fun h => ?_⟩⟩
  · rw [lotAnswer, withLength_eq (n := 1) rfl, byteAt_zero, asFin_none h]
    rfl
  · rw [lotAnswer, withLength_eq (n := 1) rfl, byteAt_zero, hs, asFin_val]
    dsimp only
    rw [dequeue_profiles, if_pos h]
    rfl
  · rw [← enc16, ← replyPayload_ok]
    refine taken ?_
    rw [lotAnswer, withLength_eq (n := 1) rfl, byteAt_zero, hs, asFin_val]
    dsimp only
    rw [dequeue_profiles, if_neg h]

/-- R91: what LOT declares. -/
theorem declareLot_dequeue (slot : Fin 8) (s : State) : declareLot slot (dequeue s) =
    { dequeue s with
      profiles.seqCounter := if s.profiles.seqCounter = 65535 then 1 else s.profiles.seqCounter + 1
      profiles.current :=
        some ⟨if s.profiles.seqCounter = 65535 then 1 else s.profiles.seqCounter + 1, slot⟩ } := by
  simp only [declareLot, nextNumber, dequeue_profiles]

/-- Settles O24: the declaration, the lot at a place, and the two findings with what follows them. -/
theorem lotsDeclaredAndFound : Obligations.LotsDeclaredAndFound := by
  unfold Obligations.LotsDeclaredAndFound
  refine ⟨fun tag f s ht => ?_, fun s => ⟨?_, ?_, ?_, ?_, ?_⟩, fun s => ⟨rfl, rfl, rfl, fun raising => ?_⟩⟩
  · dsimp only
    simp only [← declareLot_dequeue]
    exact exec_lot ht
  · exact fun place before after b hq hb ha => lotAt_some (newestAt_newest hq hb ha)
  · exact fun place h => lotAt_none (newestAt_none h)
  · exact fun place p b h => countsAt_iff h place
  · exact ⟨findHeatLot_same, findHeatLot_changed⟩
  · exact ⟨findNipLot_same, findNipLot_changed⟩
  · exact ⟨lotEvent_raised .., lotEvent_raised ..⟩

end Sys2Proof.Machine

namespace Sys2Proof.Machine

/-! ## The bands that the web carries -/

theorem findBand_id {s : State} {id : Nat} {b : Band} (h : findBand s id = some b) : b.id = id :=
  eq_of_beq (List.find?_some (p := fun x : Band => x.id == id) h)

/-- A record edited in its place is found under the id that the edit keeps. -/
theorem findBand_modifyBand {s : State} {id : Nat} {b : Band} (h : findBand s id = some b)
    {f : Band → Band} (hf : ∀ x, (f x).id = x.id) : findBand (modifyBand id f s) id = some (f b) := by
  have same : ((fun x : Band => x.id == id) ∘ fun x => if x.id = id then f x else x) =
      fun x => x.id == id := by
    funext x
    dsimp only [Function.comp]
    split
    · rw [hf]
    · rfl
  rw [findBand, modifyBand_queue, List.find?_map, same, ← findBand, h, Option.map_some,
    if_pos (findBand_id h)]

theorem midDistance_started {b : Band} {p : Int} (h : b.start = some p) (s : State) :
    midDistance s b = some (s.line.position - p - Int.fdiv b.length 2) := by
  rw [midDistance, leadDistance, h]
  rfl

/-- R103, R110: the queue holds the band of an id, and its midpoint stands at this distance. -/
structure Tracked (s : State) (id : Nat) (b : Band) (mid : Int) : Prop where
  found : findBand s id = some b
  place : midDistance s b = some mid

theorem onBand_tracked {s : State} {id : Nat} {b : Band} {mid : Int} (h : Tracked s id b mid)
    (rule : Band → Int → State → State) : onBand id rule s = rule b mid s := by
  rw [onBand, h.found]
  dsimp only
  rw [h.place]

theorem Tracked.modify {s : State} {id : Nat} {b : Band} {mid : Int} (h : Tracked s id b mid)
    {f : Band → Band} (hf : ∀ x, (f x).id = x.id ∧ (f x).start = x.start ∧ (f x).length = x.length) :
    Tracked (modifyBand id f s) id (f b) mid where
  found := findBand_modifyBand h.found fun x => (hf x).1
  place := by
    obtain ⟨-, hs, hl⟩ := hf b
    rw [← h.place, midDistance, leadDistance, hs, hl, modifyBand_line, midDistance, leadDistance]

/-! ### A band settles -/

/-- The queue, the position and P_exit are the same: what the tracking of a band looks at. -/
structure SameTrack (s t : State) : Prop where
  queue : t.bands.queue = s.bands.queue
  position : t.line.position = s.line.position
  pExit : t.line.pExit = s.line.pExit

theorem SameTrack.trans {s t u : State} (h : SameTrack s t) (g : SameTrack t u) : SameTrack s u :=
  ⟨g.queue.trans h.queue, g.position.trans h.position, g.pExit.trans h.pExit⟩

theorem ReactionFrame.sameTrack {s t : State} (h : ReactionFrame s t) : SameTrack s t where
  queue := h.queue
  position := by
    obtain ⟨-, -, hp, -⟩ := h.web
    exact hp
  pExit := by
    obtain ⟨-, -, -, -, -, hin, hwrap, hmargin, -⟩ := h.web
    rw [LineUnit.pExit, LineUnit.pOut, hin, hwrap, hmargin, LineUnit.pExit, LineUnit.pOut]

theorem Tracked.of_sameTrack {s t : State} {id : Nat} {b : Band} {mid : Int} (h : Tracked s id b mid)
    (k : SameTrack s t) : Tracked t id b mid where
  found := by rw [findBand, k.queue, ← findBand, h.found]
  place := by rw [midDistance, leadDistance, k.position, ← leadDistance, ← midDistance, h.place]

theorem offerHistory_sameTrack (id : Nat) (m : BandMarks) (r : Vector Int 6) (s : State) :
    SameTrack s (offerHistory id m r s) := by
  unfold offerHistory
  split <;> exact ⟨rfl, rfl, rfl⟩

/-- R133: the events, the report and the entries of a settled band leave the queue and the web alone. -/
theorem settleBand_sameTrack (b : Band) (s : State) :
    SameTrack (modifyBand b.id (settledBand s.bands.doseTol) s) (settleBand b s) := by
  have raised {P : Prop} [Decidable P] (k : EventKind) (t : State) :
      ReactionFrame t (if P then raiseEvent k b.id t else t) := by
    split
    · exact raiseEvent_frame k b.id t
    · exact .refl t
  unfold settleBand
  dsimp only
  refine .trans (.trans (ReactionFrame.sameTrack ?_) (offerHistory_sameTrack ..))
    (commit_frame ..).sameTrack
  refine .trans (.trans (.trans ?_ (raised ..)) (raised ..)) (raiseEvent_frame ..)
  exact (offerReport_frame ..).trans (settle_frame _)

/-- R131, R133: a settled band stands in the queue as `settledBand` makes it. -/
theorem Tracked.settleBand {s : State} {id : Nat} {b : Band} {mid : Int} (h : Tracked s id b mid) :
    Tracked (settleBand b s) id (settledBand s.bands.doseTol b) mid := by
  have edited := h.modify (f := settledBand s.bands.doseTol) fun _ => ⟨rfl, rfl, rfl⟩
  rw [← findBand_id h.found] at edited ⊢
  exact edited.of_sameTrack (settleBand_sameTrack b s)

/-! ### The three rules -/

/-- R111: an ON_WEB band at or beyond P_in enters the drum, and no other band does. -/
theorem webStep_tracked {s : State} {id : Nat} {b : Band} {mid : Int} (h : Tracked s id b mid) :
    onBand id webStep s =
      if b.state = .onWeb ∧ s.line.pIn ≤ mid then modifyBand id enterDrum s else s := by
  rw [onBand_tracked h, webStep, findBand_id h.found]

/-- R112, R113: an ON_DRUM band settles from P_out on and falls back short of P_in. -/
theorem drumStep_tracked {s : State} {id : Nat} {b : Band} {mid : Int} (h : Tracked s id b mid) :
    onBand id drumStep s =
      if b.state = .onDrum then
        if s.line.pOut ≤ mid then settleBand b s
        else if mid < s.line.pIn then modifyBand id fallBack s
        else s
      else s := by
  rw [onBand_tracked h, drumStep, findBand_id h.found]

/-- R114: a SETTLED band is removed from P_exit on. -/
theorem exitStep_tracked {s : State} {id : Nat} {b : Band} {mid : Int} (h : Tracked s id b mid) :
    onBand id exitStep s =
      if b.state = .settled ∧ s.line.pExit ≤ mid then commit s (removeBand id s) else s := by
  rw [onBand_tracked h, exitStep, findBand_id h.found]

/-- R111: the rest of the rules, once an ON_WEB band has entered the drum. -/
theorem trackBand_entered {s : State} {id : Nat} {b : Band} {mid : Int} (h : Tracked s id b mid)
    (hs : b.state = .onWeb) (hm : s.line.pIn ≤ mid) :
    trackBand s id = onBand id exitStep (onBand id drumStep (modifyBand id enterDrum s)) := by
  rw [trackBand, webStep_tracked h, if_pos ⟨hs, hm⟩]

/-- R111: the rest of the rules, for a band that does not enter the drum. -/
theorem trackBand_stays {s : State} {id : Nat} {b : Band} {mid : Int} (h : Tracked s id b mid)
    (hn : ¬(b.state = .onWeb ∧ s.line.pIn ≤ mid)) :
    trackBand s id = onBand id exitStep (onBand id drumStep s) := by
  rw [trackBand, webStep_tracked h, if_neg hn]

/-- R113, R114: an ON_DRUM band at or beyond P_out settles, and beyond P_exit it is removed at once. -/
theorem drum_exit_settles {s : State} {id : Nat} {b : Band} {mid : Int} (h : Tracked s id b mid)
    (hs : b.state = .onDrum) (hm : s.line.pOut ≤ mid) :
    onBand id exitStep (onBand id drumStep s) =
      if s.line.pExit ≤ mid then commit (settleBand b s) (removeBand id (settleBand b s))
      else settleBand b s := by
  have settled : (settledBand s.bands.doseTol b).state = .settled := rfl
  have exit : (settleBand b s).line.pExit = s.line.pExit := (settleBand_sameTrack b s).pExit
  rw [drumStep_tracked h, if_pos hs, if_pos hm, exitStep_tracked h.settleBand, exit]
  simp only [settled, true_and]

/-- R112: an ON_DRUM band short of P_out only falls back, or stays. -/
theorem drum_exit_short {s : State} {id : Nat} {b : Band} {mid : Int} (h : Tracked s id b mid)
    (hs : b.state = .onDrum) (hm : mid < s.line.pOut) :
    onBand id exitStep (onBand id drumStep s) =
      if mid < s.line.pIn then modifyBand id fallBack s else s := by
  rw [drumStep_tracked h, if_pos hs, if_neg (not_le.mpr hm)]
  split
  · rw [exitStep_tracked (h.modify (f := fallBack) fun _ => ⟨rfl, rfl, rfl⟩)]
    exact if_neg (fun g => BandState.noConfusion g.1)
  · rw [exitStep_tracked h, hs]
    exact if_neg (fun g => BandState.noConfusion g.1)

/-- R112 to R114: a band that is not on the drum is only removed, when it is SETTLED and beyond P_exit. -/
theorem drum_exit_other {s : State} {id : Nat} {b : Band} {mid : Int} (h : Tracked s id b mid)
    (hs : b.state ≠ .onDrum) :
    onBand id exitStep (onBand id drumStep s) =
      if b.state = .settled ∧ s.line.pExit ≤ mid then commit s (removeBand id s) else s := by
  rw [drumStep_tracked h, if_neg hs, exitStep_tracked h]

/-- Settles O32: the three rules of a band, applied one after another to the record that the one before left. -/
theorem bandFollowsWeb : Obligations.BandFollowsWeb := by
  unfold Obligations.BandFollowsWeb
  refine ⟨fun s => rfl, fun s id b p hb hp hw hx => ?_⟩
  intro mid pOut pExit enter removed
  have h : Tracked s id b mid := ⟨hb, midDistance_started hp s⟩
  have entered := h.modify (f := enter) fun _ => ⟨rfl, rfl, rfl⟩
  have entering (hs : b.state = .onWeb) (hm : s.line.pIn ≤ mid) :
      trackBand s id = onBand id exitStep (onBand id drumStep (modifyBand id enter s)) :=
    trackBand_entered h hs hm
  have removing (r : State) : removed r = commit r (removeBand id r) := rfl
  have out : s.line.pOut = pOut := rfl
  have out_in : pOut = s.line.pIn + s.line.lWrap := rfl
  have exit : s.line.pExit = pExit := rfl
  have exit_out : pExit = pOut + s.line.pExitMargin := rfl
  refine ⟨fun hs hm => ?_, fun hs hi ho => ?_, fun hs hm => ?_, fun hs hi ho => ?_, fun hs ho he => ?_,
    fun hs he => ?_, fun hs ho he => ?_, fun hs he => ?_, fun hs he => ?_, fun hs he => ?_⟩
  · rw [trackBand_stays h (by omega), drum_exit_other h (by simp [hs]), if_neg (by simp [hs])]
  · rw [entering hs hi, drum_exit_short entered rfl (by rw [modifyBand_line]; omega), modifyBand_line,
      if_neg (by omega)]
  · rw [trackBand_stays h (by simp [hs]), drum_exit_short h hs (by omega), if_pos hm]
    rfl
  · rw [trackBand_stays h (by simp [hs]), drum_exit_short h hs (by omega), if_neg (by omega)]
  · rw [entering hs (by omega), drum_exit_settles entered rfl (by rw [modifyBand_line]; omega),
      modifyBand_line, if_neg (by omega)]
  · rw [entering hs (by omega), drum_exit_settles entered rfl (by rw [modifyBand_line]; omega),
      modifyBand_line, if_pos (by omega), removing]
  · rw [trackBand_stays h (by simp [hs]), drum_exit_settles h hs (by omega), if_neg (by omega)]
  · rw [trackBand_stays h (by simp [hs]), drum_exit_settles h hs (by omega), if_pos (by omega), removing]
  · rw [trackBand_stays h (by simp [hs]), drum_exit_other h (by simp [hs]), if_neg (by omega)]
  · rw [trackBand_stays h (by simp [hs]), drum_exit_other h (by simp [hs]), if_pos ⟨hs, by omega⟩,
      removing]

end Sys2Proof.Machine

namespace Sys2Proof.Machine

/-! ## BAND_START -/

/-- R108, check 1. -/
theorem startAllowed_iff (m : LineMode) :
    startAllowed m = true ↔ m ≠ .off ∧ m ≠ .warming ∧ m ≠ .safe := by
  cases m <;> decide

theorem webCleared_dequeue (s : State) : webCleared (dequeue s) = webCleared s := by
  rw [webCleared, dequeue_bands, dequeue_line, webCleared]

theorem oldestUnstarted_dequeue (s : State) : oldestUnstarted (dequeue s) = oldestUnstarted s := by
  rw [oldestUnstarted, dequeue_bands, oldestUnstarted]

theorem find_started_none {bands : List Band} (h : ∀ x ∈ bands, x.start = none) :
    bands.reverse.find? (fun b => b.start.isSome) = none := by
  rw [List.find?_eq_none]
  intro x hx
  rw [h x (List.mem_reverse.mp hx)]
  exact Bool.false_ne_true

/-- R108, check 6: with no started band the web has cleared. -/
theorem webCleared_none {s : State} (h : ∀ x ∈ s.bands.queue, x.start = none) : webCleared s = true := by
  rw [webCleared, find_started_none h]

/-- R108, check 6: the newest started band decides whether the web has cleared. -/
theorem webCleared_newest {s : State} {older newer : List Band} {x : Band} {p : Int}
    (hq : s.bands.queue = older ++ x :: newer) (hp : x.start = some p)
    (hn : ∀ y ∈ newer, y.start = none) : webCleared s = decide (p + x.length ≤ s.line.position) := by
  have newest : s.bands.queue.reverse.find? (fun b => b.start.isSome) = some x := by
    rw [hq, List.reverse_append, List.reverse_cons, List.append_assoc, List.find?_append,
      find_started_none hn, Option.none_or, List.singleton_append, List.find?_cons_of_pos (by rw [hp]; rfl)]
  rw [webCleared, newest]
  dsimp only
  rw [hp]

/-- R108, check 4: with every older band started, the band itself is the oldest unstarted one. -/
theorem oldestUnstarted_self {s : State} {older newer : List Band} {b : Band}
    (hq : s.bands.queue = older ++ b :: newer) (hb : b.start = none)
    (ho : ∀ x ∈ older, x.start ≠ none) : oldestUnstarted s = some b := by
  have none_older : older.find? (fun x => x.start.isNone) = none := by
    rw [List.find?_eq_none]
    intro x hx h
    exact ho x hx (Option.isNone_iff_eq_none.mp h)
  rw [oldestUnstarted, hq, List.find?_append, none_older, Option.none_or,
    List.find?_cons_of_pos (by rw [hb]; rfl)]

/-- R108, check 4: an older band that is unstarted comes first. -/
theorem oldestUnstarted_older {s : State} {older newer : List Band} {b : Band}
    (hq : s.bands.queue = older ++ b :: newer) (ho : ∃ x ∈ older, x.start = none) :
    ∃ y ∈ older, oldestUnstarted s = some y := by
  obtain ⟨x, hx, hn⟩ := ho
  have found : (older.find? fun x => x.start.isNone).isSome :=
    List.find?_isSome.mpr ⟨x, hx, by rw [hn]; rfl⟩
  obtain ⟨y, hy⟩ := Option.isSome_iff_exists.mp found
  exact ⟨y, List.mem_of_find?_eq_some hy, by rw [oldestUnstarted, hq, List.find?_append, hy, Option.some_or]⟩

/-- R109: the start of a band, written out. -/
theorem startBand_dequeue (id : Nat) (s : State) : startBand id (dequeue s) = { dequeue s with
    bands.queue := s.bands.queue.map fun x =>
      if x.id = id then { x with start := some s.line.position, state := .onWeb } else x } := by
  simp only [startBand, modifyBand, dequeue_line, dequeue_bands]

/-- R108, check 1: in OFF, WARMING and SAFE no band is started. -/
theorem bandStartAnswer_mode {s : State} (h : startAllowed s.line.mode = false) (i0 i1 : Byte) :
    bandStartAnswer [i0, i1] s = refuse .mode s := by
  rw [bandStartAnswer, withLength_eq (n := 2) rfl, if_pos h]

/-- R108, check 2: no queued band has the id. -/
theorem bandStartAnswer_absent {s : State} {i0 i1 : Byte} (h : startAllowed s.line.mode = true)
    (hb : findBand s (i0.toNat + 256 * i1.toNat) = none) :
    bandStartAnswer [i0, i1] s = refuse .noSuch s := by
  rw [bandStartAnswer, withLength_eq (n := 2) rfl, wordAt_zero, hb, if_neg (by rw [h]; decide)]

/-- R108: checks 3 to 6 judge the band that is found. -/
theorem bandStartAnswer_found {s : State} {i0 i1 : Byte} {b : Band} (h : startAllowed s.line.mode = true)
    (hb : findBand s (i0.toNat + 256 * i1.toNat) = some b) :
    bandStartAnswer [i0, i1] s = judgeStart b s := by
  rw [bandStartAnswer, withLength_eq (n := 2) rfl, wordAt_zero, hb, if_neg (by rw [h]; decide)]

/-- R108, check 3. -/
theorem judgeStart_started {b : Band} (h : b.start ≠ none) (s : State) :
    judgeStart b s = refuse .state s := by
  rw [judgeStart, if_pos (Option.isSome_iff_ne_none.mpr h)]

/-- R108, check 4: another band is the oldest unstarted one. -/
theorem judgeStart_younger {b y : Band} {s : State} (h : b.start = none) (hy : oldestUnstarted s = some y)
    (hi : y.id ≠ b.id) : judgeStart b s = refuse .order s := by
  rw [judgeStart, h, if_neg (by decide), hy, if_pos (by simpa using hi)]

/-- R108, checks 5 and 6, and R109: the oldest unstarted band. -/
theorem judgeStart_oldest {b : Band} {s : State} (h : b.start = none) (ho : oldestUnstarted s = some b) :
    judgeStart b s =
      if b.state ≠ .ticketed then refuse .state s
      else if webCleared s = false then refuse .order s
      else ⟨findLots (commit s (startBand b.id s)), .ok, enc32 s.line.position⟩ := by
  rw [judgeStart, h, if_neg (by decide), ho, Option.map_some, if_neg (not_not.mpr rfl)]

/-- Settles O30: the six checks in order, and the start of the band that passes them. -/
theorem bandStarted : Obligations.BandStarted := by
  unfold Obligations.BandStarted
  intro tag i0 i1 s ht d id
  have answered {t : State} {st : Status} {items : List Byte}
      (h : bandStartAnswer [i0, i1] d = ⟨t, st, items⟩) :
      exec (.bandStart tag [i0, i1]) s = .next (putReply ⟨0x8A, tag, replyPayload st items⟩ t) :=
    congrArg Host.Outcome.next (takeRequest_answered ht h)
  have mode : d.line.mode = s.line.mode := by rw [dequeue_line]
  refine ⟨fun hm => ?_, fun h1 h2 h3 => ?_, webCleared_none, fun x p newer older hq hp hn =>
    webCleared_newest hq hp hn⟩
  · refine answered (bandStartAnswer_mode ?_ i0 i1)
    rw [mode]
    rcases hm with hm | hm | hm <;> rw [hm] <;> rfl
  have allowed : startAllowed d.line.mode = true := by
    rw [mode, startAllowed_iff]
    exact ⟨h1, h2, h3⟩
  refine ⟨fun hb => answered (bandStartAnswer_absent allowed ((findBand_dequeue s id).trans hb)),
    fun b hb => ?_⟩
  have judged := bandStartAnswer_found allowed ((findBand_dequeue s id).trans hb)
  refine ⟨fun hs => answered (judged.trans (judgeStart_started hs d)), fun older newer hq hs =>
    ⟨fun hu hi => ?_, fun ho => ?_⟩⟩
  · obtain ⟨y, hy, hf⟩ := oldestUnstarted_older hq hu
    refine answered (judged.trans (judgeStart_younger hs ((oldestUnstarted_dequeue s).trans hf) ?_))
    rw [findBand_id hb]
    exact hi y hy
  · rw [judgeStart_oldest hs ((oldestUnstarted_dequeue s).trans (oldestUnstarted_self hq hs ho)),
      webCleared_dequeue] at judged
    refine ⟨fun hn => answered (judged.trans (if_pos hn)), fun hk hc => ?_, fun hk hc => ?_⟩
    · rw [if_neg (not_not.mpr hk), if_pos hc] at judged
      exact answered judged
    · rw [if_neg (not_not.mpr hk), hc, if_neg (by decide), findBand_id hb, dequeue_line,
        startBand_dequeue] at judged
      rw [← replyPayload_ok]
      exact answered judged

end Sys2Proof.Machine

namespace Sys2Proof.Machine

/-! ## BAND_CANCEL and BAND_VOID -/

/-- R117: the state without a band, written out. -/
theorem removeBand_dequeue (id : Nat) (s : State) : removeBand id (dequeue s) =
    { dequeue s with bands.queue := s.bands.queue.filter fun x => x.id != id } := by
  simp only [removeBand, dequeue_bands]

/-- R157: a computation for the band that leaves is abandoned, and the engine takes the next. -/
theorem abandonTicket_own {s : State} {f : InFlight} (h : s.engine.inFlight = some f) :
    abandonTicket f.band s = startEngine { s with engine.inFlight := none } := by
  rw [abandonTicket, h]
  exact if_pos rfl

/-- R157: any other computation goes on. -/
theorem abandonTicket_other {s : State} {id : Nat}
    (h : ∀ f, s.engine.inFlight = some f → f.band ≠ id) : abandonTicket id s = s := by
  rw [abandonTicket]
  cases hf : s.engine.inFlight with
  | none => rfl
  | some f => exact if_neg (h f hf)

theorem bandCancelAnswer_absent {s : State} {i0 i1 : Byte}
    (hb : findBand s (i0.toNat + 256 * i1.toNat) = none) :
    bandCancelAnswer [i0, i1] s = refuse .noSuch s := by
  rw [bandCancelAnswer, withLength_eq (n := 2) rfl, wordAt_zero, hb]

/-- R117: a band that is found is removed while it is TICKETING or TICKETED. -/
theorem bandCancelAnswer_found {s : State} {i0 i1 : Byte} {b : Band}
    (hb : findBand s (i0.toNat + 256 * i1.toNat) = some b) :
    bandCancelAnswer [i0, i1] s =
      if b.state = .ticketing ∨ b.state = .ticketed then
        ⟨findLots (commit s (cancelBand (i0.toNat + 256 * i1.toNat) s)), .ok, []⟩
      else refuse .state s := by
  rw [bandCancelAnswer, withLength_eq (n := 2) rfl, wordAt_zero, hb, ← findBand_id hb]

theorem bandVoidAnswer_absent {s : State} {i0 i1 : Byte}
    (hb : findBand s (i0.toNat + 256 * i1.toNat) = none) :
    bandVoidAnswer [i0, i1] s = refuse .noSuch s := by
  rw [bandVoidAnswer, withLength_eq (n := 2) rfl, wordAt_zero, hb]

/-- R118: a band that is found is marked while it is ON_WEB or ON_DRUM. -/
theorem bandVoidAnswer_found {s : State} {i0 i1 : Byte} {b : Band}
    (hb : findBand s (i0.toNat + 256 * i1.toNat) = some b) :
    bandVoidAnswer [i0, i1] s =
      if b.state = .onWeb ∨ b.state = .onDrum then
        ⟨voidBand (i0.toNat + 256 * i1.toNat) s, .ok, []⟩
      else refuse .state s := by
  rw [bandVoidAnswer, withLength_eq (n := 2) rfl, wordAt_zero, hb, ← findBand_id hb]

/-- R118: the mark, written out. -/
theorem voidBand_dequeue (id : Nat) (s : State) : voidBand id (dequeue s) = { dequeue s with
    bands.queue := s.bands.queue.map fun x =>
      if x.id = id then { x with marks.void := true } else x } := by
  simp only [voidBand, modifyBand, dequeue_bands]

/-- R117: BAND_CANCEL of a band that is found, by its state. -/
theorem exec_bandCancel_found {tag i0 i1 : Byte} {s : State} {b : Band}
    (ht : takeable ⟨0x0B, tag, [i0, i1]⟩ s = true)
    (hb : findBand s (i0.toNat + 256 * i1.toNat) = some b) :
    exec (.bandCancel tag [i0, i1]) s = .next
      (if b.state = .ticketing ∨ b.state = .ticketed then
        putReply ⟨0x8B, tag, [0]⟩ (findLots (commit (dequeue s)
          (cancelBand (i0.toNat + 256 * i1.toNat) (dequeue s))))
      else putReply ⟨0x8B, tag, [12]⟩ (dequeue s)) := by
  have ha := bandCancelAnswer_found ((findBand_dequeue s _).trans hb)
  refine congrArg Host.Outcome.next ?_
  split
  · next h =>
    rw [← replyPayload_ok]
    exact takeRequest_answered ht (ha.trans (if_pos h))
  · next h => exact takeRequest_answered ht (ha.trans (if_neg h))

/-- R118: BAND_VOID of a band that is found, by its state. -/
theorem exec_bandVoid_found {tag i0 i1 : Byte} {s : State} {b : Band}
    (ht : takeable ⟨0x0C, tag, [i0, i1]⟩ s = true)
    (hb : findBand s (i0.toNat + 256 * i1.toNat) = some b) :
    exec (.bandVoid tag [i0, i1]) s = .next
      (if b.state = .onWeb ∨ b.state = .onDrum then
        putReply ⟨0x8C, tag, [0]⟩ (voidBand (i0.toNat + 256 * i1.toNat) (dequeue s))
      else putReply ⟨0x8C, tag, [12]⟩ (dequeue s)) := by
  have ha := bandVoidAnswer_found ((findBand_dequeue s _).trans hb)
  refine congrArg Host.Outcome.next ?_
  split
  · next h =>
    rw [← replyPayload_ok]
    exact takeRequest_answered ht (ha.trans (if_pos h))
  · next h => exact takeRequest_answered ht (ha.trans (if_neg h))

/-- Settles O31: both requests by the band they name, and a cancelled band by the computation in flight. -/
theorem bandCancelledOrVoided : Obligations.BandCancelledOrVoided := by
  unfold Obligations.BandCancelledOrVoided
  intro tag i0 i1 s d id without
  have removed : removeBand id d = without := removeBand_dequeue id s
  have engine : without.engine = s.engine := dequeue_engine s
  refine ⟨fun ht => ⟨fun hb => ?_, fun b hb => ⟨fun h1 h2 => ?_, fun hs => ⟨?_, fun hf => ?_⟩⟩⟩,
    fun ht => ⟨fun hb => ?_, fun b hb => ⟨fun h1 h2 => ?_, fun hs => ?_⟩⟩⟩
  · exact congrArg _ (takeRequest_answered ht (bandCancelAnswer_absent ((findBand_dequeue s id).trans hb)))
  · rw [exec_bandCancel_found ht hb, if_neg (not_or.mpr ⟨h1, h2⟩)]
  · rintro ⟨f, hf, hi⟩
    have cancelled : cancelBand id d = startEngine { without with engine.inFlight := none } := by
      rw [cancelBand, removed, ← hi]
      exact abandonTicket_own (by rw [engine, hf])
    rw [exec_bandCancel_found ht hb, if_pos hs, cancelled]
  · have cancelled : cancelBand id d = without := by
      rw [cancelBand, removed]
      exact abandonTicket_other (by rw [engine]; exact hf)
    rw [exec_bandCancel_found ht hb, if_pos hs, cancelled]
  · exact congrArg _ (takeRequest_answered ht (bandVoidAnswer_absent ((findBand_dequeue s id).trans hb)))
  · rw [exec_bandVoid_found ht hb, if_neg (not_or.mpr ⟨h1, h2⟩)]
  · rw [exec_bandVoid_found ht hb, if_pos hs, voidBand_dequeue]

end Sys2Proof.Machine

namespace Sys2Proof.Machine

/-! ## TICKET_REQ -/

theorem ticketingCount_dequeue (s : State) : ticketingCount (dequeue s) = ticketingCount s := by
  rw [ticketingCount, dequeue_bands, ticketingCount]

theorem nextBandId_dequeue (s : State) : nextBandId (dequeue s) = nextBandId s := by
  rw [nextBandId, dequeue_bands, nextBandId]

theorem namedColour_dequeue (s : State) (n : Nat) : namedColour (dequeue s) n = namedColour s n := by
  rw [namedColour, dequeue_profiles, namedColour]

/-! ### The id of an accepted band -/

/-- R106: the counter stops at an id after as many ids as it had to pass, each held by a queued band. -/
theorem freshId_skips (queue : List Band) (fuel : Nat) : ∀ n, ∃ k : Nat,
    freshId queue (fuel + 1) n = nextNumber^[k + 1] n ∧
      ∀ j < k, ∃ x ∈ queue, x.id = nextNumber^[j + 1] n := by
  induction fuel with
  | zero =>
    intro n
    refine ⟨0, ?_, fun j hj => absurd hj (Nat.not_lt_zero j)⟩
    rw [freshId]
    exact ite_self _
  | succ fuel ih =>
    intro n
    rw [freshId]
    split
    · next held =>
      obtain ⟨k, hk, skipped⟩ := ih (nextNumber n)
      obtain ⟨x, hx, hi⟩ := List.any_eq_true.mp held
      refine ⟨k + 1, hk, fun j hj => ?_⟩
      cases j with
      | zero => exact ⟨x, hx, eq_of_beq hi⟩
      | succ j => exact skipped j (Nat.lt_of_succ_lt_succ hj)
    · exact ⟨0, rfl, fun j hj => absurd hj (Nat.not_lt_zero j)⟩

theorem nextNumber_pos (n : Nat) : 1 ≤ nextNumber n := by
  unfold nextNumber
  split <;> omega

theorem nextNumber_le {n : Nat} (h : n ≤ 65535) : nextNumber n ≤ 65535 := by
  unfold nextNumber
  split <;> omega

theorem nextNumber_iterate_le {n : Nat} (h : n ≤ 65535) (k : Nat) : nextNumber^[k] n ≤ 65535 := by
  induction k with
  | zero => exact h
  | succ k ih => rw [Function.iterate_succ_apply']; exact nextNumber_le ih

/-- R106: the next id lies in 1..65535. -/
theorem nextBandId_range (s : State) :
    1 ≤ nextBandId s ∧ (s.bands.idCounter ≤ 65535 → nextBandId s ≤ 65535) := by
  obtain ⟨k, hk, -⟩ := freshId_skips s.bands.queue s.bands.queue.length s.bands.idCounter
  rw [nextBandId, hk]
  refine ⟨?_, fun h => nextNumber_iterate_le h (k + 1)⟩
  rw [Function.iterate_succ_apply']
  exact nextNumber_pos _

/-! ### The profile that is named -/

theorem namedColour_some {s : State} {n : Nat} {slot : Fin 16} {p : ColourProfile} (hn : n = slot.val)
    (hp : s.profiles.colour[slot] = some p) : namedColour s n = some (slot, p) := by
  rw [namedColour, hn, asFin_val, Option.bind_some, hp, Option.map_some]

/-- R104, check 3: a number outside 0..15 and an empty slot name no profile. -/
theorem namedColour_none {s : State} {n : Nat}
    (h : ∀ slot : Fin 16, n = slot.val → s.profiles.colour[slot] = none) : namedColour s n = none := by
  rw [namedColour]
  by_cases hn : n < 16
  · rw [show n = (⟨n, hn⟩ : Fin 16).val from rfl, asFin_val, Option.bind_some, h ⟨n, hn⟩ rfl,
      Option.map_none]
  · rw [asFin_none (Nat.not_lt.mp hn), Option.bind_none]

/-! ### The checks -/

theorem ticketReqAnswer_noLot {s : State} (h : s.profiles.current = none) (l0 l1 c : Byte) :
    ticketReqAnswer [l0, l1, c] s = refuse .noLot s := by
  rw [ticketReqAnswer, withLength_eq (n := 3) rfl, h]

theorem ticketReqAnswer_noColour {s : State} {c : Byte} (h : s.profiles.current ≠ none)
    (hc : namedColour s c.toNat = none) (l0 l1 : Byte) :
    ticketReqAnswer [l0, l1, c] s = refuse .noSuch s := by
  obtain ⟨lot, hl⟩ := Option.ne_none_iff_exists'.mp h
  rw [ticketReqAnswer, withLength_eq (n := 3) rfl, hl, byteAt_succ, byteAt_succ, byteAt_zero, hc]

/-- R104: checks 4 to 7 judge the request, with the lot and the profile found. -/
theorem ticketReqAnswer_named {s : State} {c : Byte} {lot : Lot} {slot : Fin 16} {p : ColourProfile}
    (hl : s.profiles.current = some lot) (hc : namedColour s c.toNat = some (slot, p)) (l0 l1 : Byte) :
    ticketReqAnswer [l0, l1, c] s = judgeTicket s lot slot p (l0.toNat + 256 * l1.toNat) := by
  rw [ticketReqAnswer, withLength_eq (n := 3) rfl, hl, byteAt_succ, byteAt_succ, byteAt_zero, hc,
    wordAt_zero]
  push_cast
  rfl

/-- R104: checks 4 to 7 in their order, on the state without the frame. -/
theorem judgeTicket_dequeue {s : State} {lot : Lot} {p : ColourProfile} {target : Int}
    (h : doseTarget (fabricOf s lot.fabric) p s.line.lWrap = target) (slot : Fin 16) (n : Int) :
    judgeTicket (dequeue s) lot slot p n =
      if n < 200 ∨ 5000 < n then refuse .range (dequeue s)
      else if target ≤ 0 then refuse .noDose (dequeue s)
      else if 64 ≤ s.bands.queue.length then refuse .full (dequeue s)
      else if 4 ≤ ticketingCount s then refuse .busy (dequeue s)
      else
        ⟨commit (dequeue s) (acceptBand (newBand s lot slot n target) (dequeue s)), .ok,
          enc16 (nextBandId s) ++ enc32 target⟩ := by
  have hb : newBand (dequeue s) lot slot n target = newBand s lot slot n target := by
    simp only [newBand, nextBandId_dequeue]
  simp only [judgeTicket, fabricOf_dequeue, dequeue_line, dequeue_bands, ticketingCount_dequeue, h, hb]
  rfl

/-- R105: an accepted band at the end of the queue, written out. -/
theorem acceptBand_dequeue (b : Band) (s : State) : acceptBand b (dequeue s) =
    startEngine { dequeue s with bands.queue := s.bands.queue ++ [b], bands.idCounter := b.id } := by
  simp only [acceptBand, dequeue_bands]

/-- Settles O27: the checks in order, and the band that passes them with the first free id. -/
theorem ticketRequestAccepted : Obligations.TicketRequestAccepted := by
  unfold Obligations.TicketRequestAccepted
  intro tag l0 l1 c s ht d length
  have answered {t : State} {st : Status} {items : List Byte}
      (h : ticketReqAnswer [l0, l1, c] d = ⟨t, st, items⟩) :
      exec (.ticketReq tag [l0, l1, c]) s = .next (putReply ⟨0x89, tag, replyPayload st items⟩ t) :=
    congrArg Host.Outcome.next (takeRequest_answered ht h)
  have profiles : d.profiles = s.profiles := dequeue_profiles s
  refine ⟨fun hl => answered (ticketReqAnswer_noLot (by rw [profiles, hl]) l0 l1 c), fun hl hc => ?_,
    fun lot slot p hl hc hp => ?_⟩
  · exact answered (ticketReqAnswer_noColour (by rw [profiles]; exact hl)
      ((namedColour_dequeue s _).trans (namedColour_none hc)) l0 l1)
  have target_eq : doseTarget (fabricOf s lot.fabric) p s.line.lWrap =
    max 0 ((fabricOf s lot.fabric).tSet - p.tFloor) *
      Int.fdiv (s.line.lWrap * 100) (fabricOf s lot.fabric).vRun := rfl
  dsimp only
  rw [← target_eq]
  generalize htarget : doseTarget (fabricOf s lot.fabric) p s.line.lWrap = target
  have judged := (ticketReqAnswer_named (s := d) (by rw [profiles, hl])
    ((namedColour_dequeue s _).trans (namedColour_some hc hp)) l0 l1).trans
    (judgeTicket_dequeue htarget slot length)
  refine ⟨fun hr => answered (judged.trans (if_pos hr)), fun h1 h2 hd => ?_, fun h1 h2 hd hf => ?_,
    fun h1 h2 hd hf hb => ?_, fun h1 h2 hd hf hb => ?_⟩
  all_goals replace judged := judged.trans (if_neg (by omega))
  · exact answered (judged.trans (if_pos hd))
  all_goals replace judged := judged.trans (if_neg (not_le.mpr hd))
  · exact answered (judged.trans (if_pos hf))
  all_goals replace judged := judged.trans (if_neg (not_le.mpr hf))
  · exact answered (judged.trans (if_pos hb))
  replace judged := judged.trans (if_neg (not_le.mpr hb))
  obtain ⟨positive, bounded⟩ := nextBandId_range s
  refine ⟨nextBandId s, newBand s lot slot length target, _, ?_,
    freshId_skips s.bands.queue s.bands.queue.length s.bands.idCounter, fun x hx he => ?_, positive,
    bounded, rfl, acceptBand_dequeue _ s⟩
  · rw [← replyPayload_ok]
    exact answered judged
  · exact nextBandId_fresh (s := s) (by omega) (List.mem_map.mpr ⟨x, hx, he⟩)

end Sys2Proof.Machine

namespace Sys2Proof.Machine

/-! ## What the event unit, the link and the history hold -/

/-- Two states hold the same reports, fault record, frames and ring entries, and both run or neither does. -/
structure SameHoldings (s t : State) : Prop where
  reports : t.events.reports = s.events.reports
  discarded : t.events.discarded = s.events.discarded
  fault : t.events.fault = s.events.fault
  buffer : t.link.buffer = s.link.buffer
  slot : t.link.slot = s.link.slot
  sending : t.link.sending = s.link.sending
  restarting : t.link.restarting = s.link.restarting
  history : t.bands.history = s.bands.history
  runs : t.runs = s.runs

theorem SameHoldings.refl (s : State) : SameHoldings s s := ⟨rfl, rfl, rfl, rfl, rfl, rfl, rfl, rfl, rfl⟩

theorem SameHoldings.trans {s t u : State} (h : SameHoldings s t) (g : SameHoldings t u) :
    SameHoldings s u where
  reports := g.reports.trans h.reports
  discarded := g.discarded.trans h.discarded
  fault := g.fault.trans h.fault
  buffer := g.buffer.trans h.buffer
  slot := g.slot.trans h.slot
  sending := g.sending.trans h.sending
  restarting := g.restarting.trans h.restarting
  history := g.history.trans h.history
  runs := g.runs.trans h.runs

/-- An operation on a state that already holds the same. -/
theorem SameHoldings.after {s t u : State} (g : SameHoldings t u) (h : SameHoldings s t) :
    SameHoldings s u := h.trans g

/-- An operation that leaves the units that hold them, and the pins, holds the same. -/
theorem SameHoldings.of_units {s t : State} (events : t.events = s.events) (link : t.link = s.link)
    (bands : t.bands = s.bands) (pins : t.pins = s.pins) : SameHoldings s t := by
  refine ⟨?_, ?_, ?_, ?_, ?_, ?_, ?_, ?_, ?_⟩ <;> first | rw [events] | rw [link] | rw [bands] | skip
  rw [State.runs, pins, State.runs]

theorem SameHoldings.of_lineFrame {s t : State} (f : LineFrame s t) (events : t.events = s.events)
    (link : t.link = s.link) : SameHoldings s t := .of_units events link f.bands f.pins

/-! ### The operations of the line and the loops that raise nothing -/

theorem silenceOnMode_holds (o m : LineMode) (s : State) : SameHoldings s (silenceOnMode o m s) := by
  unfold silenceOnMode
  split
  · exact ⟨rfl, rfl, rfl, rfl, rfl, rfl, rfl, rfl, rfl⟩
  · split <;> exact ⟨rfl, rfl, rfl, rfl, rfl, rfl, rfl, rfl, rfl⟩

/-- R9: the fields that a change of mode sets. -/
theorem modeFields_holds (m : LineMode) (p : RunPhase) (s : State) : SameHoldings s
    (endDwell (silenceOnMode s.line.mode m { s with line.mode := m, line.phase := p })) := by
  have dwell (t : State) : SameHoldings t (endDwell t) := .of_units rfl rfl rfl rfl
  exact (dwell _).after ((silenceOnMode_holds ..).after (.of_units rfl rfl rfl rfl))

theorem refreshLoop_holds (s : State) (k : Fin 10) : SameHoldings s (refreshLoop s k) := by
  obtain ⟨f, -, hl, he⟩ := refreshLoop_units s k
  exact .of_lineFrame f he hl

theorem refreshLoops_holds (s : State) : SameHoldings s (refreshLoops s) := by
  obtain ⟨f, -, hl, he⟩ := refreshLoops_units s
  exact .of_lineFrame f he hl

theorem setLineTarget_holds (t : Int) (r : RateSource) (s : State) :
    SameHoldings s (setLineTarget t r s) := by
  obtain ⟨f, -, he, -, hl⟩ := setLineTarget_spec t r s
  exact .of_lineFrame f he hl

theorem nipOff_holds (s : State) : SameHoldings s (nipOff s) := by
  obtain ⟨f, -, he, -, hl, -⟩ := nipOff_spec s
  exact .of_lineFrame f he hl

theorem setHeatHold_holds (b : Bool) (s : State) : SameHoldings s (setHeatHold b s) := by
  obtain ⟨f, -, he, hl, -⟩ := setHeatHold_spec b s
  exact .of_lineFrame f he hl

theorem checkDwell_holds (s : State) : SameHoldings s (checkDwell s) := by
  obtain ⟨f, -, -, he, hl⟩ := checkDwell_units s
  exact .of_lineFrame f he hl

theorem refreshHeatSetpoints_holds (s : State) : SameHoldings s (refreshHeatSetpoints s) := by
  unfold refreshHeatSetpoints
  dsimp only
  split
  · exact (checkDwell_holds _).after (.of_units rfl rfl rfl rfl)
  · exact .of_units rfl rfl rfl rfl

theorem raiseLimits_holds (s : State) : SameHoldings s (raiseLimits s) := by
  unfold raiseLimits
  split <;> exact .of_units rfl rfl rfl rfl

theorem replaceRamp_holds (s : State) : SameHoldings s (replaceRamp s) := by
  unfold replaceRamp
  split <;> exact .of_units rfl rfl rfl rfl

theorem ownedRampReached_holds (s : State) : SameHoldings s (ownedRampReached s) := by
  unfold ownedRampReached
  split <;> exact .of_units rfl rfl rfl rfl

theorem liftDone_holds (s : State) : SameHoldings s (liftDone s) := by
  unfold liftDone
  split <;> exact .of_units rfl rfl rfl rfl

theorem startRamp_holds (t r : Int) (s : State) : SameHoldings s (startRamp t r s) := by
  unfold startRamp
  dsimp only
  split
  · split <;> exact .of_units rfl rfl rfl rfl
  · exact .refl s

theorem abandonRamp_holds (s : State) : SameHoldings s (abandonRamp s) := by
  unfold abandonRamp
  split <;> exact .of_units rfl rfl rfl rfl

theorem rampPhase_holds (s : State) : SameHoldings s (rampPhase s) := .of_units rfl rfl rfl rfl

theorem enforceHold_holds (s : State) : SameHoldings s (enforceHold s) := .of_units rfl rfl rfl rfl

theorem engageComplete_holds (s : State) : SameHoldings s (engageComplete s) := by
  unfold engageComplete
  split
  · exact (rampPhase_holds _).after (setLineTarget_holds ..)
  · exact .refl s

theorem nipField_holds (n : NipState) (s : State) : SameHoldings s { s with line.nip := n } :=
  .of_units rfl rfl rfl rfl

theorem nipOn_holds (s : State) : SameHoldings s (nipOn s) := by
  unfold nipOn
  split
  · split
    · exact (nipField_holds _ s).trans (engageComplete_holds _)
    · exact nipField_holds _ s
  · dsimp only
    split
    · exact (liftDone_holds s).trans ((nipField_holds _ _).trans (engageComplete_holds _))
    · exact (liftDone_holds s).trans (nipField_holds _ _)
  · exact engageComplete_holds s
  · exact .refl s
  · exact nipField_holds _ s

theorem feedbackActive_holds (s : State) : SameHoldings s (feedbackActive s) := by
  unfold feedbackActive
  split
  · exact (nipField_holds _ s).trans (engageComplete_holds _)
  · exact nipField_holds _ s
  · exact .refl s
  · exact .refl s
  · exact .refl s

theorem nipLotAtLine_holds (old new : Option Lot) (s : State) :
    SameHoldings s (nipLotAtLine old new s) := by
  unfold nipLotAtLine
  dsimp only
  split
  · exact .refl s
  · split
    · exact (rampPhase_holds _).after (setLineTarget_holds ..)
    · exact .refl s

/-- R12: what COOL does once the mode has changed. -/
theorem startCool_holds (s : State) : SameHoldings (setMode .off .noPhase s) (startCool s) := by
  unfold startCool
  exact (nipOff_holds _).after ((setHeatHold_holds false _).trans (.of_units rfl rfl rfl rfl))

/-- R13: what RUN does once the mode has changed. -/
theorem startRun_holds (s : State) : SameHoldings (setMode .running .engaging s) (startRun s) := by
  unfold startRun
  exact (nipOn_holds _).after ((setHeatHold_holds false _).trans (.of_units rfl rfl rfl rfl))

/-- R15: what THREAD does once the mode has changed. -/
theorem startThread_holds (s : State) :
    SameHoldings (setMode .threading .noPhase s) (startThread s) := by
  unfold startThread
  exact (setLineTarget_holds ..).after ((nipOff_holds _).trans (.of_units rfl rfl rfl rfl))

theorem startEngine_holds (s : State) : SameHoldings s (startEngine s) := by
  unfold startEngine
  split
  · exact .refl s
  · split <;> exact .of_units rfl rfl rfl rfl

/-! ### The write of a point -/

theorem storePlain_holds (p : Point) (v : Int) (s : State) : SameHoldings s (storePlain p v s) := by
  cases p
  case countsPerMm =>
    simp only [storePlain]
    split <;> exact .of_units rfl rfl rfl rfl
  case overheatMargin => exact (raiseLimits_holds _).after (.of_units rfl rfl rfl rfl)
  case standbyTemp =>
    simp only [storePlain]
    split
    · exact (refreshHeatSetpoints_holds _).after (.of_units rfl rfl rfl rfl)
    · exact .of_units rfl rfl rfl rfl
  case doseTol => exact ⟨rfl, rfl, rfl, rfl, rfl, rfl, rfl, rfl, rfl⟩
  all_goals exact .of_units rfl rfl rfl rfl

theorem refreshHeld_holds (k : Fin 10) (f : LoopRec → LoopRec) (s : State) :
    SameHoldings s (enforceHold (refreshLoop (modifyLoop k f s) k)) :=
  (enforceHold_holds _).after ((refreshLoop_holds _ k).after (.of_units rfl rfl rfl rfl))

theorem settingWrite_holds (p : Point) (v : Int) (s : State) :
    SameHoldings s (settingWrite p v s).state := by
  unfold settingWrite
  split
  · unfold writeLinkSilence silenceOnWrite
    dsimp only
    split
    · exact ⟨rfl, rfl, rfl, rfl, rfl, rfl, rfl, rfl, rfl⟩
    · split <;> exact ⟨rfl, rfl, rfl, rfl, rfl, rfl, rfl, rfl, rfl⟩
  · exact .of_units rfl rfl rfl rfl
  · exact .of_units rfl rfl rfl rfl
  · exact .of_units rfl rfl rfl rfl
  · unfold writeLoopOutput
    dsimp only
    split <;> exact .of_units rfl rfl rfl rfl
  · unfold writeLoopMode
    dsimp only
    split
    · exact refreshHeld_holds ..
    · split
      · exact refreshHeld_holds ..
      · exact .refl s
  · unfold writeOutSource
    split <;> exact .of_units rfl rfl rfl rfl
  · exact storePlain_holds ..

theorem restartSilence_holds (s : State) : SameHoldings s (restartSilence s) := by
  unfold restartSilence
  split
  · exact ⟨rfl, rfl, rfl, rfl, rfl, rfl, rfl, rfl, rfl⟩
  · exact .refl s

theorem loadStore_holds (s : State) : SameHoldings s (loadStore s) := by
  unfold loadStore
  split
  · exact .refl s
  · next c _ =>
    have loaded : SameHoldings s (c.points.foldl loadPoint s) :=
      foldl_kept _ (loadPoint_kept fun p v t h => h.trans (settingWrite_holds p v t)) _ s (.refl s)
    exact loaded.trans ⟨rfl, rfl, rfl, rfl, rfl, rfl, rfl, rfl, rfl⟩

/-! ### A property of what is held -/

/-- P depends on what is held alone, and is kept by the operations of the event unit, the link and the history
with which the units work the command c. -/
structure HoldingsKept (P : State → Prop) (c : Instr) : Prop where
  same : ∀ s t, P s → SameHoldings s t → P t
  raise : ∀ k d s, P s → P (record k d s)
  offer : ∀ r s, P s → P (offerReport r s)
  flags : ∀ k s, P s → P (clearFlags k s)
  faultClear : ∀ s, P s → isFaultClear c = true → P (emptyFaultRecord s)
  restarting : ∀ s, P s → P { s with link.restarting := true }
  admitEntries : ∀ id m r s, P s → P (offerHistory id m r s)
  clearRings : ∀ lane s, P s → P (clearHistory lane s)

namespace HoldingsKept

variable {P : State → Prop} {c : Instr}

theorem units (k : HoldingsKept P c) {s t : State} (h : P s) (events : t.events = s.events)
    (link : t.link = s.link) (bands : t.bands = s.bands) (pins : t.pins = s.pins) : P t :=
  k.same s t h (.of_units events link bands pins)

theorem setMode (k : HoldingsKept P c) (m : LineMode) (p : RunPhase) (s : State) (h : P s) :
    P (Machine.setMode m p s) := by
  unfold Machine.setMode
  exact k.raise _ _ _ (k.same s _ h ((refreshLoops_holds _).after (modeFields_holds m p s)))

theorem stoppingComplete (k : HoldingsKept P c) (s : State) (h : P s) :
    P (Machine.stoppingComplete s) := by
  have stopped : P (Machine.setMode .ready .noPhase { s with line.feed := false }) :=
    k.setMode _ _ _ (k.units h rfl rfl rfl rfl)
  unfold Machine.stoppingComplete
  dsimp only
  split
  · exact k.same _ _ stopped (nipOff_holds _)
  · exact stopped

theorem beginStop (k : HoldingsKept P c) (s : State) (h : P s) : P (Machine.beginStop s) :=
  k.same _ _ (k.setMode _ _ s h) (setLineTarget_holds ..)

theorem endStop (k : HoldingsKept P c) (s : State) (h : P s) : P (Machine.endStop s) := by
  unfold Machine.endStop
  split
  · exact k.stoppingComplete s h
  · exact h

/-- R13, R21: an engage that ends without the nip CLOSED returns the line to READY. -/
theorem endEngage (k : HoldingsKept P c) (s : State) (h : P s) :
    P (Machine.setMode .ready .noPhase (setLineTarget 0 .rampRate { s with line.feed := false })) :=
  k.setMode _ _ _ (k.same _ _ (k.units (t := { s with line.feed := false }) h rfl rfl rfl rfl)
    (setLineTarget_holds ..))

theorem stepReference (k : HoldingsKept P c) (s : State) (h : P s) : P (Machine.stepReference s) := by
  unfold Machine.stepReference
  split
  · exact h
  · dsimp only
    have stepped : P (refreshLoops { s with line.reference := steppedReference s.line }) :=
      k.same s _ h ((refreshLoops_holds _).after (.of_units rfl rfl rfl rfl))
    split
    · have reached := k.same _ _ stepped (ownedRampReached_holds _)
      unfold targetReached
      dsimp only
      split
      · split
        · exact k.units reached rfl rfl rfl rfl
        · exact reached
      · split
        · exact k.stoppingComplete _ reached
        · exact reached
      all_goals exact reached
    · exact stepped

/-- A reaction touches what is held by raising and reporting alone. -/
theorem kept (k : HoldingsKept P c) : Kept P where
  output _ _ h := k.units h rfl rfl rfl rfl
  watch _ _ _ h := k.units h rfl rfl rfl rfl
  levels _ _ h := k.units h rfl rfl rfl rfl
  deferred _ _ h := k.units h rfl rfl rfl rfl
  free _ h := k.units h rfl rfl rfl rfl
  hold _ _ h _ := k.units h rfl rfl rfl rfl
  raise := k.raise
  write p v s h _ := k.same s _ h (settingWrite_holds p v s)
  ramp t r s h := k.same s _ h (startRamp_holds t r s)
  abandon s h := k.same s _ h (abandonRamp_holds s)
  lift s h := by
    have lifted := k.same s _ h (nipOff_holds s)
    unfold liftNip
    dsimp only
    split
    · exact k.endEngage _ lifted
    · exact lifted
  stop s h := by
    unfold stopLine
    split
    · exact k.endStop _ (k.beginStop s h)
    · exact h
  heatHold s h := k.same s _ h (setHeatHold_holds true s)
  beacon _ h := k.units h rfl rfl rfl rfl
  report _ s h := k.offer _ s h
  safe s h _ := k.same _ _ (k.setMode .safe .noPhase (halted s)
    (k.units (k.same s _ h (replaceRamp_holds s)) rfl rfl rfl rfl)) (nipOff_holds _)

/-- The owners touch what is held by these operations alone. -/
theorem ownerKept (k : HoldingsKept P c) : OwnerKept P c where
  toKept := k.kept
  count _ _ h := k.units h rfl rfl rfl rfl
  position _ _ h := k.units h rfl rfl rfl rfl
  speed _ h := k.units h rfl rfl rfl rfl
  step := k.stepReference
  dwellEnd s h _ := k.setMode _ _ s h
  dwell s h := k.same s _ h (checkDwell_holds s)
  nipState _ _ h := k.units h rfl rfl rfl rfl
  feedback s h := k.same s _ h (feedbackActive_holds s)
  failed s h := by
    unfold failedEngage
    split
    · exact k.endEngage s h
    · exact h
  beginStop s h _ := k.beginStop s h
  endStop := k.endStop
  heat s h _ := k.setMode _ _ _ (k.same s _ h (setHeatHold_holds false s))
  cool s h _ := k.same _ _ (k.setMode .off .noPhase s h) (startCool_holds s)
  run s h _ := k.same _ _ (k.setMode .running .engaging s h) (startRun_holds s)
  thread s h _ := k.same _ _ (k.setMode .threading .noPhase s h) (startThread_holds s)
  clear _ h _ _ := k.setMode _ _ _ (k.units h rfl rfl rfl rfl)
  beaconOff _ h := k.units h rfl rfl rfl rfl
  nipFb _ s h := k.same s _ h ⟨rfl, rfl, rfl, rfl, rfl, rfl, rfl, rfl, rfl⟩
  guardClosed _ s h := k.same s _ h ⟨rfl, rfl, rfl, rfl, rfl, rfl, rfl, rfl, rfl⟩
  estopOn s h _ := k.same s _ h ⟨rfl, rfl, rfl, rfl, rfl, rfl, rfl, rfl, rfl⟩
  estopOff s h := k.same s _ h ⟨rfl, rfl, rfl, rfl, rfl, rfl, rfl, rfl, rfl⟩
  idlePins _ s h hr hp := k.same s _ h ⟨rfl, rfl, rfl, rfl, rfl, rfl, rfl, rfl, hp.trans hr.symm⟩
  scanner _ _ h _ := k.units h rfl rfl rfl rfl
  channel _ _ _ h := k.units h rfl rfl rfl rfl
  loopFresh _ _ h := k.units h rfl rfl rfl rfl
  loopStale j s h := k.same s _ h (refreshHeld_holds j _ s)
  tension t s h := k.same _ _ (k.units (t := modifyLoop (spanLoop t) _ s) h rfl rfl rfl rfl)
    (refreshLoop_holds _ (spanLoop t))
  compute _ _ _ h := k.units h rfl rfl rfl rfl
  limit _ _ _ _ h := k.units h rfl rfl rfl rfl
  overOn _ _ h := k.units h rfl rfl rfl rfl
  overOff _ _ h := k.units h rfl rfl rfl rfl
  span _ _ _ h := k.units h rfl rfl rfl rfl
  window _ h _ := k.units h rfl rfl rfl rfl
  onTime _ _ h := k.units h rfl rfl rfl rfl
  guardedWrite p v s h _ _ := k.same s _ h (settingWrite_holds p v s)
  heatLot l s h _ := k.same _ _ (k.units (t := { s with profiles.heat := l }) h rfl rfl rfl rfl)
    ((refreshHeatSetpoints_holds _).trans (raiseLimits_holds _))
  nipLot l s h _ := k.same _ _
    (k.units (t := refreshTensionSetpoints { s with profiles.nip := l }) h rfl rfl rfl rfl)
    (nipLotAtLine_holds ..)
  lot _ _ h _ := k.units h rfl rfl rfl rfl
  colour _ _ _ h _ _ := k.units h rfl rfl rfl rfl
  fabric _ _ _ h _ _ := k.units h rfl rfl rfl rfl
  accept _ _ _ _ s h _ _ _ _ _ := k.same s _ h
    ((startEngine_holds _).after ⟨rfl, rfl, rfl, rfl, rfl, rfl, rfl, rfl, rfl⟩)
  edit _ _ s h _ _ := k.same s _ h ⟨rfl, rfl, rfl, rfl, rfl, rfl, rfl, rfl, rfl⟩
  remove _ s h := k.same s _ h ⟨rfl, rfl, rfl, rfl, rfl, rfl, rfl, rfl, rfl⟩
  idle _ h := k.units h rfl rfl rfl rfl
  engine s h := k.same s _ h (startEngine_holds s)
  admitEntries := k.admitEntries
  clearRings := k.clearRings
  lockOn _ h _ := k.units h rfl rfl rfl rfl
  lockOff _ h := k.units h rfl rfl rfl rfl
  offer := k.offer
  flags := k.flags
  mask _ s h := k.same s _ h ⟨rfl, rfl, rfl, rfl, rfl, rfl, rfl, rfl, rfl⟩
  faultClear := k.faultClear
  restarting := k.restarting
  nvm _ _ h := k.units h rfl rfl rfl rfl

end HoldingsKept

end Sys2Proof.Machine

namespace Sys2Proof.Machine

/-! ## Capacities -/

theorem transmitNext_capacity {s : State} (h : WithinCapacity s) : WithinCapacity (transmitNext s) := by
  obtain ⟨hr, hd, hb, hf⟩ := h
  unfold transmitNext payNotice
  split
  · exact ⟨hr, hd, hb, hf⟩
  · split
    · exact ⟨hr, hd, hb, hf⟩
    · split
      · exact ⟨hr, hd, hb, hf⟩
      · next r rest e =>
        rw [e, List.length_cons] at hr
        split
        · exact ⟨by simp only [List.length_append, List.length_singleton]; omega, Nat.zero_le _, hb, hf⟩
        · exact ⟨by dsimp only; omega, hd, hb, hf⟩

theorem offerReport_capacity (r : Report) {s : State} (h : WithinCapacity s) :
    WithinCapacity (offerReport r s) := by
  obtain ⟨hr, hd, hb, hf⟩ := h
  unfold offerReport
  split
  · next room =>
    refine transmitNext_capacity ⟨?_, hd, hb, hf⟩
    simp only [List.length_append, List.length_singleton]
    exact room
  · unfold discardReport
    dsimp only
    split <;> exact ⟨hr, Nat.min_le_left .., hb, hf⟩

theorem bit_ne_zero (k : EventKind) : k.bit ≠ 0 := by cases k <;> decide

/-- R189: a record that captures a fault is not empty. -/
theorem capture_isEmpty (r : FaultRecord) (k : EventKind) (d : Nat) (m : LineMode) (p : Int) :
    (r.capture k d m p).isEmpty = false := by
  cases h : r.isEmpty
  · exact (capture_first h k d m p).1
  · rw [FaultRecord.capture, if_pos h]
    exact beq_false_of_ne (bit_ne_zero k)

theorem captureFault_capacity (k : EventKind) (d : Nat) {s : State} (h : WithinCapacity s) :
    WithinCapacity (captureFault k d s) := by
  obtain ⟨hr, hd, hb, hf⟩ := h
  unfold captureFault
  split
  · refine ⟨hr, hd, hb, fun he => ?_⟩
    exact absurd ((capture_isEmpty ..).symm.trans he) Bool.false_ne_true
  · exact ⟨hr, hd, hb, hf⟩

theorem WithinCapacity.of_same {s t : State} (h : WithinCapacity s) (g : SameHoldings s t) :
    WithinCapacity t where
  reports := by rw [g.reports]; exact h.reports
  discarded := by rw [g.discarded]; exact h.discarded
  buffer := by rw [g.buffer]; exact h.buffer
  fault := by rw [g.fault]; exact h.fault

theorem setFlag_holds (k : EventKind) (s : State) : SameHoldings s (setFlag k s) :=
  ⟨rfl, rfl, rfl, rfl, rfl, rfl, rfl, rfl, rfl⟩

theorem deferOffer_holds (d : Deferred) (s : State) : SameHoldings s (deferOffer d s) :=
  .of_units rfl rfl rfl rfl

theorem record_capacity (k : EventKind) (d : Nat) {s : State} (h : WithinCapacity s) :
    WithinCapacity (record k d s) := by
  have captured := captureFault_capacity k d (h.of_same (setFlag_holds k s))
  have reported : WithinCapacity (reportEvent k d (captureFault k d (setFlag k s))) := by
    unfold reportEvent
    split
    · exact offerReport_capacity _ captured
    · exact captured
  exact reported.of_same (deferOffer_holds _ _)

theorem offerHistory_capacity (id : Nat) (m : BandMarks) (r : Vector Int 6) {s : State}
    (h : WithinCapacity s) : WithinCapacity (offerHistory id m r s) := by
  obtain ⟨hr, hd, hb, hf⟩ := h
  unfold offerHistory
  split <;> exact ⟨hr, hd, hb, hf⟩

theorem clearFlags_capacity (k : BitVec 23) {s : State} (h : WithinCapacity s) :
    WithinCapacity (clearFlags k s) := by
  obtain ⟨hr, hd, hb, hf⟩ := h
  unfold clearFlags
  dsimp only
  split
  · exact ⟨hr, Nat.zero_le _, hb, hf⟩
  · exact ⟨hr, hd, hb, hf⟩

/-- No owner exceeds a capacity. -/
theorem withinCapacity_kept (c : Instr) : HoldingsKept WithinCapacity c where
  same _ _ h g := h.of_same g
  raise k d _ h := record_capacity k d h
  offer r _ h := offerReport_capacity r h
  flags k _ h := clearFlags_capacity k h
  faultClear _ h _ := ⟨h.reports, h.discarded, h.buffer, fun _ => rfl⟩
  restarting _ h := ⟨h.reports, h.discarded, h.buffer, h.fault⟩
  admitEntries id m r _ h := offerHistory_capacity id m r h
  clearRings _ _ h := ⟨h.reports, h.discarded, h.buffer, h.fault⟩

theorem dequeue_capacity {s : State} (h : WithinCapacity s) : WithinCapacity (dequeue s) := by
  unfold dequeue
  split
  · exact h.of_same (restartSilence_holds s)
  · next e =>
    have hb := h.buffer
    rw [e, List.length_cons] at hb
    exact ⟨h.reports, h.discarded, by dsimp only; omega, h.fault⟩

/-- Nor does the link, or a start. -/
theorem withinCapacity_stepKept (c : Instr) : StepKept WithinCapacity c where
  toOwnerKept := (withinCapacity_kept c).ownerKept
  receiver _ _ h := ⟨h.reports, h.discarded, h.buffer, h.fault⟩
  buffered f s h hb := by
    refine ⟨h.reports, h.discarded, ?_, h.fault⟩
    simp only [List.length_append, List.length_singleton]
    omega
  silence _ _ h := ⟨h.reports, h.discarded, h.buffer, h.fault⟩
  dequeued _ h := dequeue_capacity h
  reply _ _ h := transmitNext_capacity ⟨h.reports, h.discarded, h.buffer, h.fault⟩
  sent _ h := transmitNext_capacity ⟨h.reports, h.discarded, h.buffer, h.fault⟩
  blank _ _ r _ s h _ hr := by
    refine ⟨Nat.zero_le _, Nat.zero_le _, Nat.zero_le _, ?_⟩
    rcases hr with rfl | ⟨rfl, -⟩
    · exact h.fault
    · exact fun _ => rfl
  load s h _ _ _ := h.of_same (loadStore_holds s)

/-! ## The rings -/

theorem outOfRange_eq_false_iff (r : Int) : outOfRange r = false ↔ 3072 ≤ r ∧ r ≤ 5120 := by
  simp only [outOfRange, Bool.or_eq_false_iff, decide_eq_false_iff_not, not_lt]

/-- R134: the 8 newest of a ring and its new entry. -/
theorem pushEntry_length_le (ring : List HistEntry) (e : HistEntry) : (pushEntry ring e).length ≤ 8 := by
  rw [pushEntry, List.length_drop, Config.ringCapacity]
  omega

theorem mem_pushEntry {ring : List HistEntry} {e x : HistEntry} (h : x ∈ pushEntry ring e) :
    x ∈ ring ∨ x = e := by
  have hx := List.mem_of_mem_drop h
  rwa [List.mem_append, List.mem_singleton] at hx

theorem offerHistory_kept (id : Nat) (m : BandMarks) (r : Vector Int 6) {s : State} (h : HistoryKept s) :
    HistoryKept (offerHistory id m r s) := by
  unfold offerHistory
  split
  · exact h
  · intro z
    simp only [Fin.getElem_fin, tab_getElem]
    split
    · exact h z
    · next inside =>
      refine ⟨pushEntry_length_le .., fun e he => ?_⟩
      rcases mem_pushEntry he with he | rfl
      · exact (h z).2 e he
      · exact (outOfRange_eq_false_iff _).mp (Bool.eq_false_iff.mpr inside)

theorem clearHistory_kept (lane : Nat) {s : State} (h : HistoryKept s) :
    HistoryKept (clearHistory lane s) := by
  intro z
  simp only [clearHistory, Fin.getElem_fin, tab_getElem]
  split
  · exact ⟨Nat.zero_le _, fun _ he => nomatch he⟩
  · exact h z

theorem HistoryKept.of_history {s t : State} (h : HistoryKept s) (e : t.bands.history = s.bands.history) :
    HistoryKept t := by
  unfold HistoryKept
  rw [e]
  exact h

theorem historyKept_kept (c : Instr) : HoldingsKept HistoryKept c where
  same _ _ h g := h.of_history g.history
  raise k d s h := h.of_history (record_frame k d s).history
  offer r s h := h.of_history (offerReport_frame r s).history
  flags _ _ h := h.of_history (by unfold clearFlags; dsimp only; split <;> rfl)
  faultClear _ h _ := h
  restarting _ h := h
  admitEntries id m r _ h := offerHistory_kept id m r h
  clearRings lane _ h := clearHistory_kept lane h

/-- A start leaves the rings empty, and the link never touches them. -/
theorem historyKept_stepKept (c : Instr) : StepKept HistoryKept c where
  toOwnerKept := (historyKept_kept c).ownerKept
  receiver _ _ h := h
  buffered _ _ h _ := h
  silence _ _ h := h
  dequeued s h := h.of_history (by rw [dequeue_bands])
  reply f s h := (show HistoryKept { s with link.slot := some f } from h).of_history
    (transmitNext_frame _).history
  sent s h := (show HistoryKept { s with link.sending := none } from h).of_history
    (transmitNext_frame _).history
  blank _ _ _ _ _ _ _ _ := reset_historyKept.of_history rfl
  load s h _ _ _ := h.of_history (loadStore_holds s).history

end Sys2Proof.Machine

namespace Sys2Proof.Machine

/-! ## An idle transmitter -/

/-- R199: an idle transmitter has left neither a reply in the slot nor a report in the queue. -/
def LeftIdle (s : State) : Prop :=
  s.link.sending = none → s.link.slot = none ∧ s.events.reports = []

theorem LeftIdle.of_same {s t : State} (h : LeftIdle s) (g : SameHoldings s t) : LeftIdle t := by
  unfold LeftIdle
  rw [g.sending, g.slot, g.reports]
  exact h

/-- R199: the transmitter goes idle only where nothing waits to be sent. -/
theorem transmitNext_leftIdle (s : State) : LeftIdle (transmitNext s) := by
  unfold transmitNext payNotice
  split
  · next hs => exact fun hn => nomatch hs.symm.trans hn
  · split
    · exact nofun
    · next hslot =>
      split
      · next hr => exact fun _ => ⟨hslot, hr⟩
      · split <;> exact nofun

/-- A transmitter that finds no reply leaves the slot as it was. -/
theorem transmitNext_slot {s : State} (h : s.link.sending = none → s.link.slot = none) :
    (transmitNext s).link.slot = s.link.slot := by
  unfold transmitNext payNotice
  split
  · rfl
  · next hn =>
    rw [h hn]
    dsimp only
    split
    · exact h hn
    · split <;> exact h hn

theorem offerReport_leftIdle (r : Report) {s : State} (h : LeftIdle s) :
    LeftIdle (offerReport r s) ∧ (offerReport r s).link.slot = s.link.slot := by
  unfold offerReport
  split
  · exact ⟨transmitNext_leftIdle _,
      transmitNext_slot (s := { s with events.reports := s.events.reports ++ [r] }) fun hn => (h hn).1⟩
  · unfold discardReport
    dsimp only
    split <;> exact ⟨h, rfl⟩

theorem captureFault_leftIdle (k : EventKind) (d : Nat) {s : State} (h : LeftIdle s) :
    LeftIdle (captureFault k d s) ∧ (captureFault k d s).link.slot = s.link.slot := by
  unfold captureFault
  split <;> exact ⟨h, rfl⟩

/-- R182: an occurrence leaves no reply and no report to an idle transmitter, and the slot as it was. -/
theorem record_leftIdle (k : EventKind) (d : Nat) {s : State} (h : LeftIdle s) :
    LeftIdle (record k d s) ∧ (record k d s).link.slot = s.link.slot := by
  obtain ⟨captured, slot⟩ := captureFault_leftIdle k d (h.of_same (setFlag_holds k s))
  have reported : LeftIdle (reportEvent k d (captureFault k d (setFlag k s))) ∧
      (reportEvent k d (captureFault k d (setFlag k s))).link.slot = s.link.slot := by
    unfold reportEvent
    split
    · obtain ⟨idle, same⟩ := offerReport_leftIdle
        (.event k d (captureFault k d (setFlag k s)).line.position) captured
      exact ⟨idle, same.trans slot⟩
    · exact ⟨captured, slot⟩
  exact ⟨reported.1.of_same (deferOffer_holds ..), reported.2⟩

/-- The part runs, and its transmitter is idle only where nothing waits to be sent. -/
def RunsIdle (s : State) : Prop := s.runs = true ∧ LeftIdle s

theorem runs_of_pins {s t : State} (h : s.runs = true) (e : t.pins = s.pins) : t.runs = true := by
  rwa [State.runs, e]

theorem clearFlags_leftIdle (k : BitVec 23) {s : State} (h : LeftIdle s) : LeftIdle (clearFlags k s) := by
  unfold clearFlags
  dsimp only
  split <;> exact h

theorem runsIdle_kept (c : Instr) : HoldingsKept RunsIdle c where
  same _ _ h g := ⟨g.runs.trans h.1, h.2.of_same g⟩
  raise k d s h := ⟨runs_of_pins h.1 (record_frame k d s).pins, (record_leftIdle k d h.2).1⟩
  offer r s h := ⟨runs_of_pins h.1 (offerReport_frame r s).pins, (offerReport_leftIdle r h.2).1⟩
  flags k s h := ⟨runs_of_pins h.1 (by unfold clearFlags; dsimp only; split <;> rfl),
    clearFlags_leftIdle k h.2⟩
  faultClear _ h _ := h
  restarting _ h := h
  admitEntries _ _ _ s h := by unfold offerHistory; split <;> exact h
  clearRings _ _ h := h

/-! ## The frames that wait -/

theorem LinkServed.leftIdle {s : State} (h : LinkServed s) : LeftIdle s := h.idle

theorem LinkServed.of_same {s t : State} (h : LinkServed s) (g : SameHoldings s t) : LinkServed t where
  served := by
    rw [g.slot, g.restarting, g.buffer]
    exact h.served
  idle := h.leftIdle.of_same g

/-- An operation that leaves the reception alone, the slot as it was and no report to an idle transmitter. -/
theorem LinkServed.of_frame {s t : State} (h : LinkServed s) (f : ReactionFrame s t)
    (g : LeftIdle t ∧ t.link.slot = s.link.slot) : LinkServed t where
  served := by
    rw [g.2, f.restarting, f.buffer]
    exact h.served
  idle := g.1

theorem linkServed_kept (c : Instr) : HoldingsKept LinkServed c where
  same _ _ h g := h.of_same g
  raise k d s h := h.of_frame (record_frame k d s) (record_leftIdle k d h.leftIdle)
  offer r s h := h.of_frame (offerReport_frame r s) (offerReport_leftIdle r h.leftIdle)
  flags k s h := by
    unfold clearFlags
    dsimp only
    split <;> exact ⟨h.served, h.idle⟩
  faultClear _ h _ := ⟨h.served, h.idle⟩
  restarting _ h := ⟨nofun, h.idle⟩
  admitEntries _ _ _ s h := by
    unfold offerHistory
    split
    · exact h
    · exact ⟨h.served, h.idle⟩
  clearRings _ _ h := ⟨h.served, h.idle⟩

/-- R197: with a reply in the slot, or a RESTART taken, frames may wait. -/
theorem LinkServed.of_busy {s : State} (h : LeftIdle s)
    (busy : s.link.slot ≠ none ∨ s.link.restarting = true) : LinkServed s where
  served hn hr := busy.elim (fun hs => absurd hn hs) fun ht => nomatch hr.symm.trans ht
  idle := h

/-- R197: a frame that the link cannot take joins those that wait, or is discarded. -/
theorem validFrame_served (f : Frame) {s : State} (h : LinkServed s)
    (busy : s.link.slot ≠ none ∨ s.link.restarting = true) : LinkServed (validFrame f s) := by
  unfold validFrame
  split
  · have joined : LinkServed { s with link.buffer := s.link.buffer ++ [f] } := .of_busy h.leftIdle busy
    exact joined.of_same (restartSilence_holds _)
  · exact (linkServed_kept .guardCloses).kept.raiseEvent _ _ _ (h.of_same (restartSilence_holds s))

/-- R197, R199: a reply put into the slot leaves the slot occupied, or an idle transmitter has taken it. -/
theorem putReply_served (r : Frame) {s : State} (h : LinkServed s) : LinkServed (putReply r s) where
  served := by
    cases hs : s.link.sending with
    | none =>
      rw [(putReply_cases r s).1 hs]
      exact fun _ => h.served (h.idle hs).1
    | some f =>
      rw [(putReply_cases r s).2 f hs]
      exact nofun
  idle := transmitNext_leftIdle _

theorem takeable_iff (f : Frame) (s : State) : takeable f s = true ↔
    s.runs = true ∧ s.link.restarting = false ∧ s.link.slot = none ∧
      (s.link.buffer = [] ∨ s.link.buffer.head? = some f) := by
  simp [takeable, and_assoc]

/-- R197: taken or left waiting, a request leaves the link served. -/
theorem takeRequest_served (c : Instr) (f : Frame) {s : State} (h : LinkServed s) :
    LinkServed (takeRequest f (answerOf c) s) := by
  unfold takeRequest
  split
  · next ht =>
    obtain ⟨-, hr, hs, -⟩ := (takeable_iff f s).mp ht
    have dequeued : LinkServed (dequeue s) := by
      rw [dequeue, h.served hs hr]
      exact h.of_same (restartSilence_holds s)
    exact putReply_served _ ((linkServed_kept c).ownerKept.answers _ _ dequeued)
  · next ht =>
    split
    · next hruns =>
      refine validFrame_served f h ?_
      by_contra hn
      simp only [not_or, not_not, Bool.not_eq_true] at hn
      exact ht ((takeable_iff f s).mpr ⟨hruns, hn.2, hn.1, .inl (h.served hn.1 hn.2)⟩)
    · exact h

theorem dequeue_sends (s : State) : (dequeue s).link.sending = s.link.sending ∧
    (dequeue s).link.slot = s.link.slot := by
  unfold dequeue
  split
  · exact ⟨(restartSilence_holds s).sending, (restartSilence_holds s).slot⟩
  · exact ⟨rfl, rfl⟩

theorem takeFrame_runsIdle {f : Frame} {s : State} (ht : takeable f s = true) (h : RunsIdle s) :
    RunsIdle (takeFrame f s) := by
  have dequeued : RunsIdle (dequeue s) := by
    obtain ⟨hs, hslot⟩ := dequeue_sends s
    refine ⟨runs_of_pins h.1 (dequeue_pins s), ?_⟩
    rw [LeftIdle, hs, hslot, dequeue_events]
    exact h.2
  have answered := (runsIdle_kept (requestOf f)).ownerKept.answers f.payload _ dequeued
  rw [takeFrame, takeRequest_taken _ ht]
  exact ⟨runs_of_pins answered.1 (transmitNext_frame _).pins, transmitNext_leftIdle _⟩

/-- The part runs, and no frame waits that the link could take. -/
def Attended (s : State) : Prop := s.runs = true ∧ LinkServed s

/-- R197: the link takes the frames that wait until the slot is occupied, a RESTART has been taken, or none
waits. -/
theorem serve_attended (l : List Frame) : ∀ s, RunsIdle s → s.link.buffer = l → Attended (serve l s) := by
  induction l with
  | nil => exact fun s h hb => ⟨h.1, fun _ _ => hb, h.2⟩
  | cons f l ih =>
    intro s h hb
    unfold serve
    split
    · next ht =>
      refine ih _ (takeFrame_runsIdle ht h) ?_
      rw [(takeFrame_link ht).1, hb, List.tail_cons]
    · next ht =>
      refine ⟨h.1, fun hs hr => absurd ?_ ht, h.2⟩
      exact (takeable_iff f s).mpr ⟨h.1, hr, hs, .inr (by rw [hb, List.head?_cons])⟩

theorem serveBuffer_attended {s : State} (h : RunsIdle s) : Attended (serveBuffer s) :=
  serve_attended _ s h rfl

theorem validFrame_runsIdle (f : Frame) {s : State} (h : RunsIdle s) : RunsIdle (validFrame f s) := by
  have k := runsIdle_kept .guardCloses
  unfold validFrame
  split
  · exact k.same { s with link.buffer := s.link.buffer ++ [f] } _ h (restartSilence_holds _)
  · exact k.kept.raiseEvent _ _ _ (k.same s _ h (restartSilence_holds s))

/-! ### Bytes received -/

theorem receiver_holds (r : Receiver) (s : State) : SameHoldings s { s with link.receiver := r } :=
  ⟨rfl, rfl, rfl, rfl, rfl, rfl, rfl, rfl, rfl⟩

theorem Attended.of_same {s t : State} (h : Attended s) (g : SameHoldings s t) : Attended t :=
  ⟨g.runs.trans h.1, h.2.of_same g⟩

theorem Attended.raiseEvent (k : EventKind) (d : Nat) {s : State} (h : Attended s) :
    Attended (raiseEvent k d s) :=
  ⟨runs_of_pins h.1 (raiseEvent_frame k d s).pins,
    (linkServed_kept .guardCloses).kept.raiseEvent k d s h.2⟩

theorem gather_attended (g : List Byte) {s : State} (h : Attended s) : Attended (gather g s) := by
  have hunting : Attended { s with link.receiver := .hunting } := h.of_same (receiver_holds _ s)
  have inside : Attended { s with link.receiver := .inside g } := h.of_same (receiver_holds _ s)
  unfold gather
  split
  · exact inside
  · split
    · exact hunting.raiseEvent ..
    · split
      · exact inside
      · split
        · exact serveBuffer_attended (validFrame_runsIdle _ ⟨hunting.1, hunting.2.leftIdle⟩)
        · exact hunting.raiseEvent ..

theorem receiveByte_attended (s : State) (b : Byte) (h : Attended s) : Attended (receiveByte s b) := by
  unfold receiveByte
  split
  · split
    · exact h.of_same (receiver_holds _ s)
    · exact h
  · exact gather_attended _ h

/-! ### Starts and the transmitter's end -/

theorem estopPressed_served {s : State} (h : LinkServed s) : LinkServed (estopPressed s) := by
  have k := linkServed_kept .estopActive
  exact k.kept.commit _ _ (k.raise _ _ _ (h.of_same ⟨rfl, rfl, rfl, rfl, rfl, rfl, rfl, rfl, rfl⟩))

theorem blankStart_served (cause : StartCause) (m : Option LineMode) (r : FaultRecord) (s : State) :
    LinkServed (blankStart cause m r s) := ⟨fun _ _ => rfl, fun _ => ⟨rfl, rfl⟩⟩

theorem startPart_served (cause : StartCause) (m : Option LineMode) (r : FaultRecord) (s : State) :
    LinkServed (startPart cause m r s) := by
  have loaded := (blankStart_served cause m r s).of_same (loadStore_holds _)
  unfold startPart takeEstop
  split
  · exact estopPressed_served ⟨loaded.served, loaded.idle⟩
  · exact loaded

theorem frameSent_served {s : State} (hr : s.runs = true) (h : LinkServed s) :
    LinkServed (frameSent s) := by
  unfold frameSent
  split
  · exact h
  · split
    · exact startPart_served ..
    · have sent := transmitNext_frame { s with link.sending := none }
      exact (serveBuffer_attended ⟨runs_of_pins hr sent.pins, transmitNext_leftIdle _⟩).2

end Sys2Proof.Machine

namespace Sys2Proof.Machine

/-! ## The commands that bring no frame -/

/-- The commands that bring no frame to the link, let it take none, and neither start the part nor hold it in
reset: the owners work them alone. -/
def worksAlone : Instr → Bool
  | .quadratureEdge _ | .positionChange _ | .speedPeriodExpiry | .warmUpDwellExpiry | .nipFbActive
  | .nipFbInactive | .engageTimingExpiry | .liftTimingExpiry | .estopActive | .estopReleased | .guardOpens
  | .guardCloses | .scanCycleExpiry | .conversionComplete _ | .silenceTimingExpiry _ | .heaterWindowStart
  | .heaterOnTimeEnd _ | .webLossExpiry _ | .watchPersistenceExpiry _ | .linkSilenceExpiry
  | .ticketCompletion | .storeWriteComplete _ | .interbyteGapTimeout => true
  | _ => false

namespace OwnerKept

variable {P : State → Prop} {c : Instr}

theorem feedbackInactive (k : OwnerKept P c) (old s : State) (h : P s) :
    P (Machine.feedbackInactive old s) := by
  unfold Machine.feedbackInactive
  split
  · split
    · have lost := k.commit old _ (k.raise .nipFault 0 _ (k.nipState .lost s h))
      dsimp only
      split
      · exact k.stopCommitted _ lost
      · exact lost
    · exact k.commit _ _ (k.nipState _ s h)
  · refine k.commit _ _ ?_
    unfold liftDone
    split
    · exact k.deferOffer _ _ (k.nipState _ s h)
    · exact k.nipState _ s h
  · exact k.commit _ _ h
  · exact k.commit _ _ h
  · exact k.commit _ _ h

theorem dwellExpired (k : OwnerKept P c) (s : State) (h : P s) : P (Machine.dwellExpired s) := by
  unfold Machine.dwellExpired
  split
  · exact h
  · split
    · next hm => exact k.commit _ _ (k.dwellEnd s h hm)
    · exact h

theorem engageTimingEnds (k : OwnerKept P c) (s : State) (h : P s) :
    P (Machine.engageTimingEnds s) := by
  unfold Machine.engageTimingEnds engageExpired
  dsimp only
  split
  · exact k.commit _ _ (k.failed _ (k.commit _ _ (k.nipState _ _ (k.raise _ _ _ h))))
  · exact h

theorem liftTimingEnds (k : OwnerKept P c) (s : State) (h : P s) : P (Machine.liftTimingEnds s) := by
  have opened := k.nipState .opened _ (k.raise .nipFault 0 s h)
  unfold Machine.liftTimingEnds liftDone
  split
  · refine k.commit _ _ ?_
    split
    · exact k.deferOffer _ _ opened
    · exact opened
  · exact h

theorem guardOpened (k : OwnerKept P c) (s : State) (h : P s) : P (Machine.guardOpened s) := by
  unfold Machine.guardOpened
  refine k.commit _ _ ?_
  split
  · exact k.raise _ _ _ (k.guardClosed _ _ h)
  · exact k.guardClosed _ _ h

theorem scanCycle (k : OwnerKept P c) (s : State) (h : P s) : P (Machine.scanCycle s) := by
  unfold Machine.scanCycle
  split
  · exact k.commit _ _ (k.startPass _ h)
  · exact h

theorem expireSilence (k : OwnerKept P c) (x : Fin 16) (s : State) (h : P s) :
    P (Machine.expireSilence x s) := by
  unfold Machine.expireSilence
  split
  · exact k.staleNotice _ _ (k.commit _ _ (k.channel _ _ _ h))
  · exact h

theorem onTimeEnds (k : OwnerKept P c) (z : Fin 6) (s : State) (h : P s) :
    P (Machine.onTimeEnds z s) := by
  unfold Machine.onTimeEnds
  split
  · exact h
  · exact k.onTime _ _ h

theorem webLossExpired (k : OwnerKept P c) (x : Fin 4) (s : State) (h : P s) :
    P (Machine.webLossExpired x s) := by
  unfold Machine.webLossExpired
  split
  · exact h
  · exact k.commit _ _ (k.raise _ _ _ (k.span _ _ _ h))

theorem persistenceEnds (k : OwnerKept P c) (w : Fin 16) (s : State) (h : P s) :
    P (Machine.persistenceEnds w s) := by
  unfold Machine.persistenceEnds
  split
  · exact k.settle _ (k.deferOffer _ _ (k.watch _ _ _ h))
  · exact h

theorem endStore (k : OwnerKept P c) (agrees : Bool) (s : State) (h : P s) :
    P (Machine.endStore agrees s) := by
  unfold Machine.endStore
  split
  · exact h
  · split <;> exact k.commit _ _ (k.raise _ _ _ (k.nvm _ _ h))

theorem silenceExpired (k : OwnerKept P c) (silence : ∀ v s, P s → P { s with link.silence := v })
    (s : State) (h : P s) : P (Machine.silenceExpired s) := by
  unfold Machine.silenceExpired
  split
  · exact h
  · exact k.raiseEvent _ _ _ (silence _ _ h)

theorem gapTimeout (k : OwnerKept P c) (receiver : ∀ r s, P s → P { s with link.receiver := r })
    (s : State) (h : P s) : P (Machine.gapTimeout s) := by
  unfold Machine.gapTimeout
  split
  · exact h
  · exact k.raiseEvent _ _ _ (receiver _ _ h)

theorem execNipFbActive (k : OwnerKept P c) (s : State) (h : P s) :
    ∃ t, Machine.execNipFbActive s = .next t ∧ P t := by
  refine ⟨_, rfl, ?_⟩
  split
  · exact h
  · dsimp only
    split
    · exact k.commit _ _ (k.feedback _ (k.nipFb _ _ h))
    · exact k.nipFb _ _ h

theorem execNipFbInactive (k : OwnerKept P c) (s : State) (h : P s) :
    ∃ t, Machine.execNipFbInactive s = .next t ∧ P t := by
  refine ⟨_, rfl, ?_⟩
  split
  · dsimp only
    split
    · exact k.feedbackInactive _ _ (k.nipFb _ _ h)
    · exact k.nipFb _ _ h
  · exact h

theorem execEstopActive (k : OwnerKept P c) (s : State) (h : P s) :
    ∃ t, Machine.execEstopActive s = .next t ∧ P t := by
  refine ⟨_, rfl, ?_⟩
  split
  · exact h
  · split
    · next hr => exact k.estopPressed s h hr
    · next hr =>
      simp only [Bool.not_eq_true] at hr
      exact k.idlePins _ s h hr (by simpa [State.runs] using hr)

theorem execEstopReleased (k : OwnerKept P c) (s : State) (h : P s) :
    ∃ t, Machine.execEstopReleased s = .next t ∧ P t := by
  refine ⟨_, rfl, ?_⟩
  split
  · exact k.commit _ _ (k.estopOff _ h)
  · exact k.estopOff _ h

theorem execGuardOpens (k : OwnerKept P c) (s : State) (h : P s) :
    ∃ t, Machine.execGuardOpens s = .next t ∧ P t := by
  refine ⟨_, rfl, ?_⟩
  split
  · split
    · exact k.guardOpened s h
    · exact k.guardClosed _ _ h
  · exact h

theorem execGuardCloses (k : OwnerKept P c) (s : State) (h : P s) :
    ∃ t, Machine.execGuardCloses s = .next t ∧ P t := by
  refine ⟨_, rfl, ?_⟩
  split
  · exact k.commit _ _ (k.guardClosed _ _ h)
  · exact k.guardClosed _ _ h

/-- A property that the owners' operations, and those of the receiver and the silence timing, keep is kept by
every command that the owners work alone. -/
theorem exec_alone (k : OwnerKept P c) (receiver : ∀ r s, P s → P { s with link.receiver := r })
    (silence : ∀ v s, P s → P { s with link.silence := v }) (ha : worksAlone c = true) (s : State)
    (h : P s) : ∃ t, exec c s = .next t ∧ P t := by
  have running {f : State → State} (hf : ∀ s, P s → P (f s)) : ∃ t,
      (.next (whenRuns s f) : Host.Outcome State Fault Refusal) = .next t ∧ P t :=
    ⟨_, rfl, StepKept.whenRuns f hf s h⟩
  cases c with
  | quadratureEdge _ => exact running fun s h => k.count _ s h
  | positionChange _ => exact running fun s h => k.publishPosition _ (k.count _ s h)
  | speedPeriodExpiry => exact running fun s h => k.commit _ _ (k.step _ (k.commit _ _ (k.speed s h)))
  | warmUpDwellExpiry => exact running k.dwellExpired
  | nipFbActive => exact k.execNipFbActive s h
  | nipFbInactive => exact k.execNipFbInactive s h
  | engageTimingExpiry => exact running k.engageTimingEnds
  | liftTimingExpiry => exact running k.liftTimingEnds
  | estopActive => exact k.execEstopActive s h
  | estopReleased => exact k.execEstopReleased s h
  | guardOpens => exact k.execGuardOpens s h
  | guardCloses => exact k.execGuardCloses s h
  | scanCycleExpiry => exact running k.scanCycle
  | conversionComplete _ => exact running (k.completeConversion _)
  | silenceTimingExpiry x => exact running (k.expireSilence x)
  | heaterWindowStart =>
    exact ⟨_, rfl, StepKept.whenRunning _ (fun s h hr => k.commit _ _ (k.window s h hr)) s h⟩
  | heaterOnTimeEnd z => exact running (k.onTimeEnds z)
  | webLossExpiry x => exact running (k.webLossExpired x)
  | watchPersistenceExpiry w => exact running (k.persistenceEnds w)
  | linkSilenceExpiry => exact running (k.silenceExpired silence)
  | ticketCompletion => exact running fun s h => k.commit _ _ (k.completeTicket s h)
  | storeWriteComplete agrees => exact running (k.endStore agrees)
  | interbyteGapTimeout => exact running (k.gapTimeout receiver)
  | _ => exact absurd ha Bool.false_ne_true

end OwnerKept

/-! ## Every command leaves the link served -/

theorem holdInReset_served (m : Option LineMode) (r : FaultRecord) (s : State) :
    LinkServed (holdInReset m r s) := blankStart_served ..

theorem resetActivated_served {s : State} (h : LinkServed s) : LinkServed (resetActivated s) := by
  unfold resetActivated
  dsimp only
  split
  · exact h
  · split
    · exact holdInReset_served ..
    · exact ⟨h.served, h.idle⟩

theorem resetReleased_served (straps : BitVec 2) {s : State} (h : LinkServed s) :
    LinkServed (resetReleased straps s) := by
  unfold resetReleased
  dsimp only
  split
  · split
    · exact startPart_served ..
    · exact ⟨h.served, h.idle⟩
  · exact h

theorem powerOn_served (straps : BitVec 2) (s : State) : LinkServed (powerOn straps s) := by
  unfold powerOn
  dsimp only
  split
  · exact holdInReset_served ..
  · exact startPart_served ..

theorem receiveBytes_served (bytes : List Byte) {s : State} (h : LinkServed s) :
    LinkServed (whenRuns s (receiveBytes bytes)) := by
  unfold whenRuns
  split
  · next hr => exact (foldl_kept receiveByte receiveByte_attended bytes s ⟨hr, h⟩).2
  · exact h

theorem transmitComplete_served {s : State} (h : LinkServed s) : LinkServed (whenRuns s frameSent) := by
  unfold whenRuns
  split
  · next hr => exact frameSent_served hr h
  · exact h

theorem exec_served (c : Instr) {s : State} (h : LinkServed s) : ∃ t, exec c s = .next t ∧ LinkServed t := by
  have request (f : Frame) : LinkServed (takeRequest f (answerOf c) s) := takeRequest_served c f h
  have row (codes own : Nat) (f : Frame) : LinkServed (takeRow codes own f (answerOf c) s) := by
    unfold takeRow
    split
    · exact request f
    · exact h
  have alone (ha : worksAlone c = true) : ∃ t, exec c s = .next t ∧ LinkServed t :=
    (linkServed_kept c).ownerKept.exec_alone (fun _ _ h => ⟨h.served, h.idle⟩)
      (fun _ _ h => ⟨h.served, h.idle⟩) ha s h
  cases c
  case powerOn straps => exact ⟨_, rfl, powerOn_served straps s⟩
  case powerLoss => exact ⟨_, rfl, holdInReset_served ..⟩
  case resetLineActive => exact ⟨_, rfl, resetActivated_served h⟩
  case resetLineRelease straps => exact ⟨_, rfl, resetReleased_served straps h⟩
  case frameReceived bytes => exact ⟨_, rfl, receiveBytes_served bytes h⟩
  case frameSyncReceived b => exact ⟨_, rfl, receiveBytes_served [b] h⟩
  case transmitComplete => exact ⟨_, rfl, transmitComplete_served h⟩
  case lineCmdHeat | lineCmdCool | lineCmdRun | lineCmdStop | lineCmdThread | lineCmdClear
      | scanCmdContinuous | scanCmdSingle | scanCmdStop | scanCmdConfigure | levelCmdEnable
      | levelCmdDisable | levelCmdFire | levelCmdLock | levelCmdUnlock => exact ⟨_, rfl, row ..⟩
  case unknownRequest kind tag p =>
    refine ⟨_, rfl, ?_⟩
    split
    · exact request ⟨kind, tag, p⟩
    · exact h
  case hello | pointRead | pointWrite | lot | profileWrite | profileRead | profileErase | ticketReq
      | bandStart | bandCancel | bandVoid | bandRead | queueRead | historyRead | historyClear | channelMode
      | zero | watchWrite | watchRead | levelWrite | levelRead | eventsRead | eventsClear | maskWrite
      | faultRead | faultClear | store | restart => exact ⟨_, rfl, request _⟩
  all_goals exact alone rfl

theorem step_served {s t : State} (h : LinkServed s) (e : step s = .next t) : LinkServed t := by
  unfold step at e
  split at e
  · cases e
    exact (linkServed_kept .guardCloses).kept.settle s h
  · next c rest _ =>
    obtain ⟨u, hu, served⟩ := exec_served c (s := { s with pending := rest }) ⟨h.served, h.idle⟩
    rw [hu] at e
    cases e
    exact served

/-- Settles O57: the capacities and the rings by the operations that touch them, and the link by the frames
that it takes within every command. -/
theorem capacitiesKept : Obligations.CapacitiesKept := by
  unfold Obligations.CapacitiesKept
  refine fun s t e => ⟨fun h => ?_, fun h => ?_, fun h => step_served h e⟩
  · exact step_kept withinCapacity_stepKept
      (fun _ _ h => ⟨h.reports, h.discarded, h.buffer, h.fault⟩) h e
  · exact step_kept historyKept_stepKept (fun _ _ h => h) h e

end Sys2Proof.Machine

namespace Sys2Proof.Machine

/-! ## Flags that stand -/

/-- R182 step 1: no hand-over and no reaction clears a flag. -/
theorem flag_kept (j : EventKind) : Kept (fun s => hasKind s.events.set j = true) :=
  kept_of_events (Q := fun e => hasKind e.set j = true) (fun k d _ h => record_flags k d h)
    fun r s h => by
      obtain ⟨-, -, -, -, -, -, -, -, -, -, -, flags⟩ := offerReport_units r s
      exact flags j h

theorem raiseEvent_flag (k : EventKind) (d : Nat) (s : State) :
    hasKind (raiseEvent k d s).events.set k = true := by
  obtain ⟨-, -, -, -, -, -, -, -, -, -, -, flag⟩ := record_units k d s
  exact (flag_kept k).settle _ flag

theorem raiseEvent_keeps_flag {j : EventKind} (k : EventKind) (d : Nat) {s : State}
    (h : hasKind s.events.set j = true) : hasKind (raiseEvent k d s).events.set j = true :=
  (flag_kept j).raiseEvent k d s h

/-- An occurrence raised where it is called for. -/
def raiseIf (raised : Bool) (k : EventKind) (d : Nat) (s : State) : State :=
  if raised then raiseEvent k d s else s

theorem raiseIf_frame (raised : Bool) (k : EventKind) (d : Nat) (s : State) :
    ReactionFrame s (raiseIf raised k d s) := by
  unfold raiseIf
  split
  · exact raiseEvent_frame k d s
  · exact .refl s

theorem raiseIf_flag {raised : Bool} (h : raised = true) (k : EventKind) (d : Nat) (s : State) :
    hasKind (raiseIf raised k d s).events.set k = true := by
  rw [raiseIf, if_pos h]
  exact raiseEvent_flag k d s

theorem raiseIf_keeps_flag {j : EventKind} (raised : Bool) (k : EventKind) (d : Nat) {s : State}
    (h : hasKind s.events.set j = true) : hasKind (raiseIf raised k d s).events.set j = true := by
  unfold raiseIf
  split
  · exact raiseEvent_keeps_flag k d h
  · exact h

/-! ## The ratios of a settled band -/

/-- R131: the ratios that a band settles with. -/
def settledRatios (b : Band) : Vector Int 6 := tab fun z => ratioOf (accOf b)[z] b.dTarget

theorem settledRatios_getElem (b : Band) (z : Fin 6) :
    (settledRatios b)[z] = ratioOf (accOf b)[z] b.dTarget := by
  simp [settledRatios]

theorem deviates_iff (tol : Int) (ratios : Vector Int 6) :
    deviates tol ratios = true ↔ ∃ z : Fin 6, tol < |ratios[z] - 4096| := by
  simp [deviates]

theorem outOfRange_iff (r : Int) : outOfRange r = true ↔ r < 3072 ∨ 5120 < r := by
  simp [outOfRange]

theorem anyOut_iff (ratios : Vector Int 6) :
    anyOut ratios = true ↔ ∃ z : Fin 6, ratios[z] < 3072 ∨ 5120 < ratios[z] := by
  simp [anyOut, outOfRange_iff]

/-! ## A band settles -/

/-- R133: the band has settled, and its SETTLED report, DOSE_DEV, DOSE_OUT and BAND_SETTLED are taken. -/
def announceBand (b : Band) (s : State) : State :=
  raiseEvent .bandSettled b.id
    (raiseIf (anyOut (settledRatios b)) .doseOut b.id
      (raiseIf (deviates s.bands.doseTol (settledRatios b)) .doseDev b.id
        (settle (offerReport (settledReport (settledBand s.bands.doseTol b) (settledRatios b))
          (modifyBand b.id (settledBand s.bands.doseTol) s)))))

theorem settleBand_eq (b : Band) (s : State) : settleBand b s = commit (announceBand b s)
    (offerHistory b.id (settledBand s.bands.doseTol b).marks (settledRatios b) (announceBand b s)) := rfl

theorem announceBand_frame (b : Band) (s : State) :
    ReactionFrame (modifyBand b.id (settledBand s.bands.doseTol) s) (announceBand b s) :=
  ((((offerReport_frame ..).trans (settle_frame _)).trans (raiseIf_frame ..)).trans
    (raiseIf_frame ..)).trans (raiseEvent_frame ..)

theorem announceBand_flags (b : Band) (s : State) :
    (deviates s.bands.doseTol (settledRatios b) = true →
      hasKind (announceBand b s).events.set .doseDev = true) ∧
    (anyOut (settledRatios b) = true → hasKind (announceBand b s).events.set .doseOut = true) ∧
    hasKind (announceBand b s).events.set .bandSettled = true := by
  refine ⟨fun h => ?_, fun h => ?_, raiseEvent_flag ..⟩
  · exact raiseEvent_keeps_flag _ _ (raiseIf_keeps_flag _ _ _ (raiseIf_flag h ..))
  · exact raiseEvent_keeps_flag _ _ (raiseIf_flag h ..)

theorem announceBand_found {b : Band} {s : State} (h : findBand s b.id = some b) :
    findBand (announceBand b s) b.id = some (settledBand s.bands.doseTol b) := by
  rw [findBand, (announceBand_frame b s).queue, ← findBand]
  exact findBand_modifyBand h fun _ => rfl

/-! ## The lanes are offered -/

/-- R135: the seven marks that bar a band; DEV and OUT are none of them. -/
theorem barred_iff (m : BandMarks) : barred m = true ↔ m.stopped = true ∨ m.uncertain = true ∨
    m.saturated = true ∨ m.scorched = true ∨ m.reversed = true ∨ m.lifted = true ∨ m.void = true := by
  simp [barred, or_assoc]

theorem barred_false_iff (m : BandMarks) : barred m = false ↔ m.stopped = false ∧ m.uncertain = false ∧
    m.saturated = false ∧ m.scorched = false ∧ m.reversed = false ∧ m.lifted = false ∧
    m.void = false := by
  simp [barred, and_assoc]

theorem offerHistory_barred {m : BandMarks} (h : barred m = true) (id : Nat) (r : Vector Int 6)
    (s : State) : offerHistory id m r s = s := if_pos h

theorem offerHistory_open {m : BandMarks} (h : barred m = false) (id : Nat) (r : Vector Int 6)
    (s : State) : offerHistory id m r s = { s with
      bands.history := tab fun z =>
        if r[z] < 3072 ∨ 5120 < r[z] then s.bands.history[z]
        else (s.bands.history[z] ++ [(⟨r[z], id⟩ : HistEntry)]).drop
          ((s.bands.history[z]).length + 1 - 8) } := by
  rw [offerHistory, if_neg (Bool.eq_false_iff.mp h)]
  simp only [outOfRange_iff, pushEntry, List.length_append, List.length_singleton, Config.ringCapacity]

/-- R134, R135: a lane joins its ring where its ratio lies inside, and no other entry enters one. -/
theorem offerHistory_ring (id : Nat) (m : BandMarks) (r : Vector Int 6) (s : State) (z : Fin 6) :
    ((s.bands.history[z]).length ≤ 8 → ((offerHistory id m r s).bands.history[z]).length ≤ 8) ∧
      ∀ e ∈ (offerHistory id m r s).bands.history[z], e ∈ s.bands.history[z] ∨
        (e = ⟨r[z], id⟩ ∧ 3072 ≤ r[z] ∧ r[z] ≤ 5120 ∧ barred m = false) := by
  unfold offerHistory
  split
  · exact ⟨fun h => h, fun _ h => .inl h⟩
  · next hm =>
    simp only [Fin.getElem_fin, tab_getElem]
    split
    · exact ⟨fun h => h, fun _ h => .inl h⟩
    · next inside =>
      refine ⟨fun _ => pushEntry_length_le .., fun e he => (mem_pushEntry he).imp_right fun h => ?_⟩
      obtain ⟨low, high⟩ := (outOfRange_eq_false_iff _).mp (Bool.eq_false_iff.mpr inside)
      exact ⟨h, low, high, Bool.eq_false_iff.mpr hm⟩

/-- Settles O33: the settled record, what is announced of it, and its lanes in the rings. -/
theorem bandSettles : Obligations.BandSettles := by
  unfold Obligations.BandSettles
  intro s b ratio dev out d s1 s2 s3 s4 u
  have ratios : tab ratio = settledRatios b := rfl
  have ratio_at (z : Fin 6) : (settledRatios b)[z] = ratio z := settledRatios_getElem b z
  have hdev : deviates s.bands.doseTol (settledRatios b) = true ↔ dev := by
    simp only [deviates_iff, ratio_at, dev]
  have hout : anyOut (settledRatios b) = true ↔ out := by
    simp only [anyOut_iff, ratio_at, out]
  have settled : settledBand s.bands.doseTol b = d := by
    have e1 : deviates s.bands.doseTol (settledRatios b) = decide dev :=
      Bool.eq_iff_iff.mpr (hdev.trans decide_eq_true_iff.symm)
    have e2 : anyOut (settledRatios b) = decide out :=
      Bool.eq_iff_iff.mpr (hout.trans decide_eq_true_iff.symm)
    simp only [d, ← e1, ← e2]
    rfl
  have raised {p : Prop} [Decidable p] {q : Bool} (h : q = true ↔ p) (k : EventKind) (t : State) :
      (if p then raiseEvent k b.id t else t) = raiseIf q k b.id t := if_congr h.symm rfl rfl
  have reported : s2 = settle (offerReport (settledReport (settledBand s.bands.doseTol b)
      (settledRatios b)) s1) := by
    rw [settled]
    rfl
  have hu : u = announceBand b s := by
    have h3 : s3 = _ := raised hdev .doseDev s2
    have h4 : s4 = _ := raised hout .doseOut s3
    rw [announceBand, ← reported, ← h3, ← h4]
  have marks : barred d.marks = barred b.marks := rfl
  have frame := announceBand_frame b s
  have history : (announceBand b s).bands.history = s.bands.history := frame.history
  obtain ⟨flagDev, flagOut, flagSettled⟩ := announceBand_flags b s
  rw [hu, ratios, ← history]
  refine ⟨settled, ?_, fun h => ?_, rfl, frame.profiles, frame.web, fun h => flagDev (hdev.mpr h),
    fun h => flagOut (hout.mpr h), flagSettled, fun h => ?_, fun m1 m2 m3 m4 m5 m6 m7 => ?_, fun z => ?_⟩
  · rw [settleBand_eq, settled]
  · rw [announceBand_found h, settled]
  · exact offerHistory_barred (marks.trans ((barred_iff _).mpr h)) ..
  · have none_bars : barred d.marks = false :=
      marks.trans ((barred_false_iff _).mpr ⟨m1, m2, m3, m4, m5, m6, m7⟩)
    simp only [offerHistory_open none_bars, ratio_at]
  · obtain ⟨bounded, entries⟩ := offerHistory_ring b.id d.marks (settledRatios b) (announceBand b s) z
    refine ⟨bounded, fun e he => (entries e he).imp_right ?_⟩
    rintro ⟨rfl, low, high, none_bars⟩
    rw [ratio_at] at low high ⊢
    exact ⟨rfl, low, high, (barred_false_iff _).mp none_bars⟩

end Sys2Proof.Machine

namespace Sys2Proof.Machine

/-! ## The dose of one band -/

theorem findBand_modifyBand_other {id other : Nat} (hne : other ≠ id) {f : Band → Band}
    (hf : ∀ x, (f x).id = x.id) (s : State) : findBand (modifyBand id f s) other = findBand s other := by
  rw [findBand, findBand, modifyBand_queue]
  induction s.bands.queue with
  | nil => rfl
  | cons b l ih =>
    rw [List.map_cons, List.find?_cons, List.find?_cons, ih]
    by_cases hb : b.id = id
    · have hb' : b.id ≠ other := fun e => hne (e.symm.trans hb)
      rw [if_pos hb, hf, beq_false_of_ne hb']
    · rw [if_neg hb]

/-- R123 to R128: what the work on the band of an id leaves alone. -/
structure BandWork (id : Nat) (s t : State) : Prop where
  others : ∀ other, other ≠ id → findBand t other = findBand s other
  history : t.bands.history = s.bands.history
  profiles : t.profiles = s.profiles
  scan : t.meas.scan = s.meas.scan
  pins : t.pins = s.pins

theorem BandWork.refl (id : Nat) (s : State) : BandWork id s s := ⟨fun _ _ => rfl, rfl, rfl, rfl, rfl⟩

theorem BandWork.trans {id : Nat} {s t u : State} (h : BandWork id s t) (g : BandWork id t u) :
    BandWork id s u where
  others other hne := (g.others other hne).trans (h.others other hne)
  history := g.history.trans h.history
  profiles := g.profiles.trans h.profiles
  scan := g.scan.trans h.scan
  pins := g.pins.trans h.pins

theorem modifyBand_bandWork (id : Nat) (f : Band → Band) (hf : ∀ x, (f x).id = x.id) (s : State) :
    BandWork id s (modifyBand id f s) :=
  ⟨fun _ hne => findBand_modifyBand_other hne hf s, rfl, rfl, rfl, rfl⟩

theorem ReactionFrame.bandWork {s t : State} (f : ReactionFrame s t) (id : Nat) : BandWork id s t where
  others other _ := by rw [findBand, f.queue, ← findBand]
  history := f.history
  profiles := f.profiles
  scan := f.scan
  pins := f.pins

theorem ReactionFrame.findBand {s t : State} (f : ReactionFrame s t) (id : Nat) :
    findBand t id = findBand s id := by rw [Machine.findBand, f.queue, ← Machine.findBand]

/-- A mark that an arrival sets on the band, with the occurrence that it raises. -/
def markBand (due : Bool) (k : EventKind) (mark : Band → Band) (id : Nat) (s : State) : State :=
  if due then raiseEvent k id (modifyBand id mark s) else s

theorem markBand_found {s : State} {id : Nat} {b : Band} (h : findBand s id = some b) (due : Bool)
    (k : EventKind) {mark : Band → Band} (hm : ∀ x, (mark x).id = x.id) :
    findBand (markBand due k mark id s) id = some (if due then mark b else b) ∧
      BandWork id s (markBand due k mark id s) ∧
      (due = true → hasKind (markBand due k mark id s).events.set k = true) := by
  unfold markBand
  split
  · have raised := raiseEvent_frame k id (modifyBand id mark s)
    exact ⟨(raised.findBand id).trans (findBand_modifyBand h hm),
      (modifyBand_bandWork id mark hm s).trans (raised.bandWork id), fun _ => raiseEvent_flag ..⟩
  · next hd => exact ⟨h, .refl id s, fun ht => absurd ht hd⟩

theorem markBand_keeps_flag {j : EventKind} (due : Bool) (k : EventKind) (mark : Band → Band) (id : Nat)
    {s : State} (h : hasKind s.events.set j = true) :
    hasKind (markBand due k mark id s).events.set j = true := by
  unfold markBand
  split
  · exact raiseEvent_keeps_flag k id (s := modifyBand id mark s) h
  · exact h

def markSaturated (b : Band) : Band := { b with marks := { b.marks with saturated := true } }

def markScorched (b : Band) : Band := { b with marks := { b.marks with scorched := true } }

/-- R124, R126: the accumulator of lane z takes an addition. -/
def accumulate (z : Fin 6) (old excess : Int) (b : Band) : Band :=
  { b with acc := some (upd (accOf b) z (addedDose old excess)) }

/-- R127: has a lane reached the scorch limit? -/
def scorches (limit : Int) (acc : Vector Int 6) : Bool :=
  (List.finRange 6).any fun z => decide (limit ≤ acc[z])

theorem scorches_iff (limit : Int) (acc : Vector Int 6) :
    scorches limit acc = true ↔ ∃ z : Fin 6, limit ≤ acc[z] := by
  simp [scorches]

/-- R124, R126: a band after an addition. -/
def dosedBand (z : Fin 6) (excess : Int) (b : Band) : Band :=
  { accumulate z (accOf b)[z] excess b with
    marks := { b.marks with saturated := b.marks.saturated || reachesLimit (accOf b)[z] excess } }

/-- R127: a band after the scorch comparison. -/
def scorchedBand (limit : Int) (b : Band) : Band :=
  { b with marks := { b.marks with scorched := b.marks.scorched || scorches limit (accOf b) } }

/-- A mark that is due where it is called for and does not stand yet, as the record then shows it. -/
theorem or_of_due (stands called : Bool) :
    (stands || called) = if called && !stands then true else stands := by
  cases stands <;> cases called <;> rfl

theorem addDose_eq {s : State} {id : Nat} {b : Band} (h : findBand s id = some b) (z : Fin 6)
    (temp : Int) : addDose z temp id s =
      markBand (reachesLimit (accOf b)[z] (temp - (colourOf s b.colour).tFloor) && !b.marks.saturated)
        .saturated markSaturated id
        (modifyBand id (accumulate z (accOf b)[z] (temp - (colourOf s b.colour).tFloor)) s) := by
  rw [addDose, h]
  rfl

theorem checkScorch_eq {s : State} {id : Nat} {b : Band} (h : findBand s id = some b) :
    checkScorch id s =
      markBand (scorches (fabricOf s b.fabric).dScorch (accOf b) && !b.marks.scorched) .scorch
        markScorched id s := by
  rw [checkScorch, h]
  rfl

/-- R124, R126: the addition, with SATURATED where it brings the accumulator to its limit. -/
theorem addDose_found {s : State} {id : Nat} {b : Band} (h : findBand s id = some b) (z : Fin 6)
    (temp : Int) :
    findBand (addDose z temp id s) id =
        some (dosedBand z (temp - (colourOf s b.colour).tFloor) b) ∧
      BandWork id s (addDose z temp id s) ∧
      (reachesLimit (accOf b)[z] (temp - (colourOf s b.colour).tFloor) = true →
        b.marks.saturated = false → hasKind (addDose z temp id s).events.set .saturated = true) := by
  rw [addDose_eq h]
  generalize temp - (colourOf s b.colour).tFloor = excess
  have added := findBand_modifyBand h (f := accumulate z (accOf b)[z] excess) fun _ => rfl
  have edited := modifyBand_bandWork id (accumulate z (accOf b)[z] excess) (fun _ => rfl) s
  obtain ⟨found, work, flag⟩ := markBand_found added
    (reachesLimit (accOf b)[z] excess && !b.marks.saturated) .saturated (mark := markSaturated) fun _ => rfl
  refine ⟨?_, edited.trans work, fun hr hs => flag ?_⟩
  · rw [found, dosedBand, or_of_due]
    split <;> rfl
  · rw [hr, hs]
    rfl

/-- R127: the comparison, with SCORCH where a lane has reached the limit. -/
theorem checkScorch_found {s : State} {id : Nat} {b : Band} (h : findBand s id = some b) :
    findBand (checkScorch id s) id = some (scorchedBand (fabricOf s b.fabric).dScorch b) ∧
      BandWork id s (checkScorch id s) ∧
      (scorches (fabricOf s b.fabric).dScorch (accOf b) = true → b.marks.scorched = false →
        hasKind (checkScorch id s).events.set .scorch = true) ∧
      ∀ j, hasKind s.events.set j = true → hasKind (checkScorch id s).events.set j = true := by
  rw [checkScorch_eq h]
  obtain ⟨found, work, flag⟩ := markBand_found h
    (scorches (fabricOf s b.fabric).dScorch (accOf b) && !b.marks.scorched) .scorch
    (mark := markScorched) fun _ => rfl
  refine ⟨?_, work, fun hr hs => flag ?_, fun _ => markBand_keeps_flag _ _ _ id⟩
  · rw [found, scorchedBand, or_of_due]
    split <;> rfl
  · rw [hr, hs]
    rfl

/-! ## One arrival worked on one band -/

/-- R124 to R127: what the dose integration makes of a band while NIP_FB is active. -/
def workedBand (z : Fin 6) (excess limit : Int) (b : Band) : Band := scorchedBand limit (dosedBand z excess b)

theorem addAndCheck_found {s : State} {id : Nat} {b : Band} (h : findBand s id = some b) (z : Fin 6)
    (temp : Int) :
    let excess := temp - (colourOf s b.colour).tFloor
    let limit := (fabricOf s b.fabric).dScorch
    let t := checkScorch id (addDose z temp id s)
    findBand t id = some (workedBand z excess limit b) ∧ BandWork id s t ∧
      (reachesLimit (accOf b)[z] excess = true → b.marks.saturated = false →
        hasKind t.events.set .saturated = true) ∧
      (scorches limit (accOf (dosedBand z excess b)) = true → b.marks.scorched = false →
        hasKind t.events.set .scorch = true) := by
  intro excess limit t
  obtain ⟨dosed, work, saturates⟩ := addDose_found h z temp
  obtain ⟨scorched, work', flag, keeps⟩ := checkScorch_found dosed
  have same : fabricOf (addDose z temp id s) b.fabric = fabricOf s b.fabric := by
    rw [fabricOf, work.profiles, ← fabricOf]
  have limit_eq : (fabricOf (addDose z temp id s) (dosedBand z excess b).fabric).dScorch = limit :=
    congrArg FabricProfile.dScorch same
  rw [limit_eq] at scorched flag
  exact ⟨scorched, work.trans work', fun hr hs => keeps _ (saturates hr hs), flag⟩

/-- R125: a band with the marks of an arrival. -/
def markArrival (speedZero nipFb held : Bool) (b : Band) : Band :=
  { b with marks := arrivalMarks speedZero nipFb held b.marks }

/-- R124 to R128: a band after an arrival. -/
def arrivedBand (z : Fin 6) (excess limit : Int) (speedZero nipFb held : Bool) (b : Band) : Band :=
  markArrival speedZero nipFb held (if nipFb then workedBand z excess limit b else b)

theorem integrateBand_found {s : State} {id : Nat} {b : Band} (h : findBand s id = some b) (z : Fin 6)
    (temp : Int) (held : Bool) :
    let excess := temp - (colourOf s b.colour).tFloor
    let limit := (fabricOf s b.fabric).dScorch
    let t := integrateBand z temp held s id
    findBand t id = some (arrivedBand z excess limit (s.line.speed == 0) s.pins.nipFb held b) ∧
      BandWork id s t ∧
      (s.pins.nipFb = true → reachesLimit (accOf b)[z] excess = true → b.marks.saturated = false →
        hasKind t.events.set .saturated = true) ∧
      (s.pins.nipFb = true → scorches limit (accOf (dosedBand z excess b)) = true →
        b.marks.scorched = false → hasKind t.events.set .scorch = true) := by
  intro excess limit t
  have last := modifyBand_bandWork id (markArrival (s.line.speed == 0) s.pins.nipFb held) fun _ => rfl
  have result : t = modifyBand id (markArrival (s.line.speed == 0) s.pins.nipFb held)
      (if s.pins.nipFb then checkScorch id (addDose z temp id s) else s) := rfl
  rw [result, arrivedBand]
  split
  · obtain ⟨found, work, saturates, burns⟩ := addAndCheck_found h z temp
    exact ⟨findBand_modifyBand found fun _ => rfl, work.trans (last _), fun _ => saturates, fun _ => burns⟩
  · next hn =>
    exact ⟨findBand_modifyBand h fun _ => rfl, last s, fun hy => absurd hy hn, fun hy => absurd hy hn⟩

theorem reachesLimit_iff (acc excess : Int) :
    reachesLimit acc excess = true ↔ 8388607 ≤ acc + max 0 excess := decide_eq_true_iff

/-- R125: what an arrival leaves of a band, and each of its marks. -/
theorem arrivedBand_marks (z : Fin 6) (excess limit : Int) (speedZero nipFb held : Bool) (b : Band) :
    let c := arrivedBand z excess limit speedZero nipFb held b
    (c.marks.saturated = true ↔ b.marks.saturated = true ∨
      (nipFb = true ∧ reachesLimit (accOf b)[z] excess = true)) ∧
    (c.marks.scorched = true ↔ b.marks.scorched = true ∨
      (nipFb = true ∧ scorches limit (accOf (dosedBand z excess b)) = true)) ∧
    (c.marks.stopped = true ↔ b.marks.stopped = true ∨ speedZero = true) ∧
    (c.marks.lifted = true ↔ b.marks.lifted = true ∨ ¬nipFb = true) ∧
    (c.marks.uncertain = true ↔ b.marks.uncertain = true ∨ held = true) ∧
    c.marks.void = b.marks.void ∧ c.marks.reversed = b.marks.reversed := by
  cases nipFb <;>
    simp [arrivedBand, markArrival, arrivalMarks, workedBand, scorchedBand, dosedBand, accumulate]

theorem arrivedBand_fields (z : Fin 6) (excess limit : Int) (speedZero nipFb held : Bool) (b : Band) :
    let c := arrivedBand z excess limit speedZero nipFb held b
    c.state = b.state ∧ c.start = b.start ∧ c.ticket = b.ticket ∧ c.ratios = b.ratios ∧
      (nipFb = true → c.acc = some (upd (accOf b) z (addedDose (accOf b)[z] excess))) ∧
      (¬nipFb = true → c.acc = b.acc) := by
  cases nipFb
  · exact ⟨rfl, rfl, rfl, rfl, nofun, fun _ => rfl⟩
  · exact ⟨rfl, rfl, rfl, rfl, fun _ => rfl, fun h => absurd rfl h⟩

/-- Settles O34: the bands oldest first, and one band with NIP_FB active and inactive. -/
theorem doseIntegrated : Obligations.DoseIntegrated := by
  unfold Obligations.DoseIntegrated
  refine ⟨fun _ _ _ _ => rfl, fun z temp held s id b h => ?_⟩
  intro excess acc nip burns
  obtain ⟨found, work, saturates, scorch⟩ := integrateBand_found h z temp held
  have hburns : scorches (fabricOf s b.fabric).dScorch
      (accOf (dosedBand z (temp - (colourOf s b.colour).tFloor) b)) = true ↔ burns := scorches_iff ..
  have hfull : reachesLimit (accOf b)[z] (temp - (colourOf s b.colour).tFloor) = true ↔
      8388607 ≤ (accOf b)[z] + excess := reachesLimit_iff ..
  have hspeed : (s.line.speed == 0) = true ↔ s.line.speed = 0 := beq_iff_eq
  obtain ⟨state, start, ticket, ratios, added, unchanged⟩ := arrivedBand_fields z
    (temp - (colourOf s b.colour).tFloor) (fabricOf s b.fabric).dScorch (s.line.speed == 0)
    s.pins.nipFb held b
  obtain ⟨saturated, scorched, stopped, lifted, uncertain, void, reversed⟩ := arrivedBand_marks z
    (temp - (colourOf s b.colour).tFloor) (fabricOf s b.fabric).dScorch (s.line.speed == 0)
    s.pins.nipFb held b
  rw [hfull] at saturated saturates
  rw [hburns] at scorched scorch
  rw [hspeed] at stopped
  exact ⟨_, _, rfl, found, state, start, ticket, ratios, added, unchanged, saturated, scorched, stopped,
    lifted, uncertain, void, reversed, saturates, scorch, work.others, work.history, work.profiles,
    work.scan, work.pins⟩

end Sys2Proof.Machine

namespace Sys2Proof.Machine

/-! ## Requests that clear -/

/-- R200: the four bytes of a set of kinds, and of a number that names a kind outside 1 to 23. -/
theorem parseKindSet_leBytes (set : BitVec 23) : parseKindSet (leBytes 4 set.toNat) = some set := by
  have small : set.toNat < 2 ^ 23 := set.isLt
  have value : leValue (leBytes 4 set.toNat) = set.toNat := by
    rw [leValue_leBytes]
    omega
  rw [parseKindSet, value, if_pos small, BitVec.ofNat_toNat, BitVec.setWidth_eq]

theorem parseKindSet_none {bits : BitVec 32} (h : 2 ^ 23 ≤ bits.toNat) :
    parseKindSet (leBytes 4 bits.toNat) = none := by
  have value : leValue (leBytes 4 bits.toNat) = bits.toNat := by
    have := bits.isLt
    rw [leValue_leBytes]
    omega
  rw [parseKindSet, value]
  exact if_neg (not_lt.mpr h)

/-- R185: naming REPORTS_DROPPED empties the discard count and withdraws the notice. -/
theorem clearFlags_dequeue (set : BitVec 23) (s : State) : clearFlags set (dequeue s) = { dequeue s with
    events.set := s.events.set &&& ~~~set
    events.discarded := if hasKind set .reportsDropped = true then 0 else s.events.discarded
    events.owed := !hasKind set .reportsDropped && s.events.owed } := by
  unfold clearFlags
  simp only [dequeue_events]
  cases hasKind set .reportsDropped <;> rfl

/-- R138: lane 0 names every ring. -/
theorem clearHistory_dequeue (lane : Nat) (s : State) : clearHistory lane (dequeue s) = { dequeue s with
    bands.history := tab fun z =>
      if lane = 0 ∨ lane = z.val + 1 then [] else s.bands.history[z] } := by
  simp only [clearHistory, dequeue_bands]

theorem eventsClearAnswer_set (set : BitVec 23) (s : State) :
    eventsClearAnswer (leBytes 4 set.toNat) s = ⟨clearFlags set s, .ok, []⟩ := by
  rw [eventsClearAnswer, withLength_eq (leBytes_length ..), parseKindSet_leBytes]

theorem eventsClearAnswer_range {bits : BitVec 32} (h : 2 ^ 23 ≤ bits.toNat) (s : State) :
    eventsClearAnswer (leBytes 4 bits.toNat) s = refuse .range s := by
  rw [eventsClearAnswer, withLength_eq (leBytes_length ..), parseKindSet_none h]

theorem maskWriteAnswer_set (set : BitVec 23) (s : State) :
    maskWriteAnswer (leBytes 4 set.toNat) s = ⟨setMask set s, .ok, []⟩ := by
  rw [maskWriteAnswer, withLength_eq (leBytes_length ..), parseKindSet_leBytes]

theorem maskWriteAnswer_range {bits : BitVec 32} (h : 2 ^ 23 ≤ bits.toNat) (s : State) :
    maskWriteAnswer (leBytes 4 bits.toNat) s = refuse .range s := by
  rw [maskWriteAnswer, withLength_eq (leBytes_length ..), parseKindSet_none h]

theorem historyClearAnswer_range {n : Byte} (h : 6 < n.toNat) (s : State) :
    historyClearAnswer [n] s = refuse .range s := by
  rw [historyClearAnswer, withLength_eq (n := 1) rfl, byteAt_zero, if_pos h]

theorem historyClearAnswer_lane {n : Byte} (h : n.toNat ≤ 6) (s : State) :
    historyClearAnswer [n] s = ⟨commit s (clearHistory n.toNat s), .ok, []⟩ := by
  rw [historyClearAnswer, withLength_eq (n := 1) rfl, byteAt_zero, if_neg (not_lt.mpr h)]

/-- Settles O42: the answer of each request on the state without its frame. -/
theorem clearingRequests : Obligations.ClearingRequests := by
  unfold Obligations.ClearingRequests
  intro tag s d
  refine ⟨fun n ht => ⟨fun h => ?_, fun h => ?_⟩, fun set => ⟨fun ht => ?_, fun ht => ?_⟩,
    fun bits h => ⟨fun ht => ?_, fun ht => ?_⟩, fun ht => ?_⟩
  · exact congrArg Host.Outcome.next (takeRequest_answered ht (historyClearAnswer_range h d))
  · have cleared := historyClearAnswer_lane h d
    rw [clearHistory_dequeue] at cleared
    have taken := takeRequest_answered ht cleared
    exact congrArg Host.Outcome.next taken
  · have cleared := eventsClearAnswer_set set d
    rw [clearFlags_dequeue] at cleared
    exact congrArg Host.Outcome.next (takeRequest_answered ht cleared)
  · exact congrArg Host.Outcome.next (takeRequest_answered ht (maskWriteAnswer_set set d))
  · exact congrArg Host.Outcome.next (takeRequest_answered ht (eventsClearAnswer_range h d))
  · exact congrArg Host.Outcome.next (takeRequest_answered ht (maskWriteAnswer_range h d))
  · have cleared : faultClearAnswer [] d = ⟨emptyFaultRecord d, .ok, []⟩ := withLength_eq (n := 0) rfl ..
    exact congrArg Host.Outcome.next (takeRequest_answered ht cleared)

end Sys2Proof.Machine

namespace Sys2Proof.Machine

/-! ## The yield at a dose -/

/-- R147: the straight line between two neighbouring nodes, rounded half up as floor gives it. -/
def interpolated (lower upper step r : Int) : Int :=
  Int.fdiv (lower * (step - r) + upper * r + Int.fdiv step 2) step

/-- A dose that lies on a node shows that node's yield. -/
theorem interpolated_zero {step : Int} (hs : 1 ≤ step) (lower upper : Int) :
    interpolated lower upper step 0 = lower := by
  have remainder : Int.fdiv step 2 / step = 0 := by
    rw [Int.fdiv_eq_ediv_of_nonneg _ (by decide)]
    exact Int.ediv_eq_zero_of_lt (by omega) (by omega)
  rw [interpolated, sub_zero, mul_zero, add_zero, Int.fdiv_eq_ediv_of_nonneg _ (by omega),
    Int.add_comm, Int.add_mul_ediv_right _ _ (by omega), remainder, zero_add]

/-- R147: the yield lies where the two nodes lie. -/
theorem interpolated_range {step r lower upper most : Int} (h0 : 0 ≤ r) (h1 : r < step)
    (hl : 0 ≤ lower ∧ lower ≤ most) (hu : 0 ≤ upper ∧ upper ≤ most) :
    0 ≤ interpolated lower upper step r ∧ interpolated lower upper step r ≤ most := by
  obtain ⟨hl0, hl1⟩ := hl
  obtain ⟨hu0, hu1⟩ := hu
  have half : Int.fdiv step 2 = step / 2 := Int.fdiv_eq_ediv_of_nonneg _ (by decide)
  have leftRange : 0 ≤ lower * (step - r) ∧ lower * (step - r) ≤ most * (step - r) :=
    ⟨Int.mul_nonneg hl0 (by omega), Int.mul_le_mul_of_nonneg_right hl1 (by omega)⟩
  have rightRange : 0 ≤ upper * r ∧ upper * r ≤ most * r :=
    ⟨Int.mul_nonneg hu0 h0, Int.mul_le_mul_of_nonneg_right hu1 h0⟩
  have whole : most * (step - r) + most * r = most * step := by ring
  have next : (most + 1) * step = most * step + step := by ring
  rw [interpolated, half, Int.fdiv_eq_ediv_of_nonneg _ (by omega)]
  constructor
  · exact Int.ediv_nonneg (by omega) (by omega)
  · exact Int.le_of_lt_add_one (Int.ediv_lt_of_lt_mul (by omega) (by omega))

theorem nodeAt_fin (nodes : Vector Int 9) (k : Fin 9) : nodeAt nodes k.val = nodes[k] :=
  dif_pos k.isLt

theorem yieldAt_below {colour : ColourProfile} {d : Int} (h : d ≤ colour.dLo)
    (nodes : Vector Int 9) : yieldAt colour nodes d = nodes[0] := if_pos h

theorem yieldAt_beyond {colour : ColourProfile} {d : Int} (hs : 1 ≤ colour.step)
    (h : colour.dLo + 8 * colour.step ≤ d) (nodes : Vector Int 9) :
    yieldAt colour nodes d = nodes[8] := by
  rw [yieldAt, if_neg (by omega), if_pos h]

/-- R147: between nodes k and k + 1, the lower of them included. -/
theorem yieldAt_between {colour : ColourProfile} {d : Int} {k : Fin 8}
    (h0 : 0 ≤ d - colour.dLo - k.val * colour.step)
    (h1 : d - colour.dLo - k.val * colour.step < colour.step) (nodes : Vector Int 9) :
    yieldAt colour nodes d = interpolated nodes[k.castSucc] nodes[k.succ] colour.step
      (d - colour.dLo - k.val * colour.step) := by
  have hs : 1 ≤ colour.step := by omega
  have past : 0 ≤ k.val * colour.step := Int.mul_nonneg (by omega) (by omega)
  have ahead : k.val * colour.step ≤ 7 * colour.step :=
    Int.mul_le_mul_of_nonneg_right (by omega) (by omega)
  by_cases first : d ≤ colour.dLo
  · have hk : k.val * colour.step = 0 := by omega
    have hk0 : k = 0 := by
      have : (k.val : Int) = 0 := (Int.mul_eq_zero.mp hk).resolve_right (by omega)
      omega
    have hr : d - colour.dLo - k.val * colour.step = 0 := by omega
    rw [yieldAt_below first, hr, interpolated_zero hs, hk0]
    rfl
  · have index : floorQuot (d - colour.dLo) colour.step = k.val := by
      rw [floorQuot, Int.fdiv_eq_ediv_of_nonneg _ (by omega)]
      exact (Int.ediv_eq_iff_of_pos (by omega)).mpr ⟨by omega, by omega⟩
    rw [yieldAt, if_neg first, if_neg (by omega)]
    simp only [index, Int.toNat_natCast]
    rw [← nodeAt_fin nodes k.castSucc, ← nodeAt_fin nodes k.succ]
    rfl

/-- R147: k lies in 0..7 and d in 0..step − 1. -/
theorem exists_node_below {dLo step d : Int} (h0 : dLo ≤ d) (h8 : d < dLo + 8 * step) :
    ∃ k : Fin 8, 0 ≤ d - dLo - k.val * step ∧ d - dLo - k.val * step < step := by
  have hs : 0 < step := by omega
  have nonneg : 0 ≤ (d - dLo) / step := Int.ediv_nonneg (by omega) (by omega)
  have below : (d - dLo) / step < 8 := Int.ediv_lt_of_lt_mul hs (by omega)
  refine ⟨⟨((d - dLo) / step).toNat, by omega⟩, ?_⟩
  rw [Int.toNat_of_nonneg nonneg, mul_comm, ← Int.emod_def]
  exact ⟨Int.emod_nonneg _ hs.ne', Int.emod_lt_of_pos _ hs⟩

/-- R147: each yield lies where the nodes of its ink lie. -/
theorem yieldAt_range {colour : ColourProfile} (hs : 1 ≤ colour.step) {nodes : Vector Int 9}
    {most : Int} (hn : ∀ k : Fin 9, 0 ≤ nodes[k] ∧ nodes[k] ≤ most) (d : Int) :
    0 ≤ yieldAt colour nodes d ∧ yieldAt colour nodes d ≤ most := by
  by_cases below : d ≤ colour.dLo
  · rw [yieldAt_below below]
    exact hn 0
  · by_cases beyond : colour.dLo + 8 * colour.step ≤ d
    · rw [yieldAt_beyond hs beyond]
      exact hn 8
    · obtain ⟨k, h0, h1⟩ := exists_node_below (not_le.mp below).le (not_le.mp beyond)
      rw [yieldAt_between h0 h1]
      exact interpolated_range h0 h1 (hn k.castSucc) (hn k.succ)

/-! ## Gains and contributions -/

theorem gainFor_zero (sn : Snapshot) (yRef : Int) : gainFor sn yRef 0 = sn.gMax := if_pos rfl

theorem gainFor_yielding {sn : Snapshot} {y : Int} (h : y ≠ 0) (yRef : Int) :
    gainFor sn yRef y = clampTo sn.gMin sn.gMax (unclampedGain yRef y) := if_neg h

/-- R149: every gain lies within the snapshot's bounds, that of a LOWYIELD ink included. -/
theorem gainFor_range {sn : Snapshot} (h : sn.gMin ≤ sn.gMax) (yRef y : Int) :
    sn.gMin ≤ gainFor sn yRef y ∧ gainFor sn yRef y ≤ sn.gMax := by
  by_cases hy : y = 0
  · rw [hy, gainFor_zero]
    exact ⟨h, le_rfl⟩
  · rw [gainFor_yielding hy]
    exact ⟨le_clampTo h _, clampTo_le h _⟩

/-- R149: a gain equal to a bound before the clamp gives no mark. -/
theorem gainClamped_iff {sn : Snapshot} (h : sn.gMin ≤ sn.gMax) (yRef y : Int) :
    gainClamped sn yRef y = true ↔
      y ≠ 0 ∧ (unclampedGain yRef y < sn.gMin ∨ sn.gMax < unclampedGain yRef y) := by
  rw [gainClamped, Bool.and_eq_true, decide_eq_true_iff, decide_eq_true_iff]
  refine and_congr_right fun hy => ?_
  rw [gainFor_yielding hy, Ne, clampTo_eq_self_iff h, not_and_or, not_le, not_le]

/-- R150: each contribution lies in 0..8192. -/
theorem contribution_range {bMax gain : Int} (hb : 0 ≤ bMax ∧ bMax ≤ 4096)
    (hg : 0 ≤ gain ∧ gain ≤ 8192) :
    0 ≤ contribution bMax gain ∧ contribution bMax gain ≤ 8192 := by
  have least : 0 ≤ bMax * gain := Int.mul_nonneg hb.1 hg.1
  have most : bMax * gain ≤ 4096 * 8192 := Int.mul_le_mul hb.2 hg.2 hg.1 (by decide)
  rw [contribution, floorQuot, Int.fdiv_eq_ediv_of_nonneg _ (by decide)]
  omega

/-- R150: the lane sum of six contributions. -/
theorem sum_six_range {c : Fin 6 → Int} {most : Int} (h : ∀ i, 0 ≤ c i ∧ c i ≤ most) :
    0 ≤ ((List.finRange 6).map c).sum ∧ ((List.finRange 6).map c).sum ≤ 6 * most := by
  have bounded : ∀ x ∈ (List.finRange 6).map c, 0 ≤ x ∧ x ≤ most := by
    intro x hx
    obtain ⟨i, -, rfl⟩ := List.mem_map.mp hx
    exact h i
  refine ⟨List.sum_nonneg fun x hx => (bounded x hx).1, ?_⟩
  simpa using List.sum_le_card_nsmul _ most fun x hx => (bounded x hx).2

/-! ## The limit factor -/

theorem limitFactor_unlimited {lTotal sum : Int} (h : sum ≤ lTotal) :
    limitFactor lTotal sum = 4096 := if_pos h

theorem limitFactor_limited {lTotal sum : Int} (h : lTotal < sum) :
    limitFactor lTotal sum = Int.fdiv (lTotal * 4096) sum := if_neg (not_le.mpr h)

/-- R151: floor keeps the total after limiting at L_total or less, and the factor below 4096. -/
theorem limitFactor_keeps_total {lTotal sum : Int} (h0 : 0 ≤ lTotal) (h : lTotal < sum) :
    limitFactor lTotal sum < 4096 ∧ sum * limitFactor lTotal sum ≤ lTotal * 4096 := by
  rw [limitFactor_limited h, Int.fdiv_eq_ediv_of_nonneg _ (by omega)]
  exact ⟨Int.ediv_lt_of_lt_mul (by omega) (by omega), Int.mul_ediv_self_le (by omega)⟩

/-- R151: every lane limit factor lies within 341..4096; its least value arises with L_total 4096 and
a sum of 49,152. -/
theorem limitFactor_range {lTotal sum : Int} (hl : 4096 ≤ lTotal) (hs : sum ≤ 49152) :
    341 ≤ limitFactor lTotal sum ∧ limitFactor lTotal sum ≤ 4096 := by
  rcases le_or_gt sum lTotal with within | above
  · rw [limitFactor_unlimited within]
    decide
  · refine ⟨?_, (limitFactor_keeps_total (by omega) above).1.le⟩
    rw [limitFactor_limited above, Int.fdiv_eq_ediv_of_nonneg _ (by omega)]
    exact (Int.le_ediv_iff_mul_le (by omega)).mpr (by omega)

/-! ## The figures of a lane -/

/-- R147: the yield of ink i in lane z. -/
def laneYield (sn : Snapshot) (z i : Fin 6) : Int :=
  yieldAt sn.colour sn.colour.nodes[i] (laneTicket sn z).dPred

/-- R150: S(z), which the ticket does not keep. -/
def laneSum (sn : Snapshot) (z : Fin 6) : Int :=
  ((List.finRange 6).map fun i => contribution sn.colour.bMax[i] (laneTicket sn z).gains[i]).sum

theorem laneTicket_gain (sn : Snapshot) (z i : Fin 6) :
    (laneTicket sn z).gains[i] = gainFor sn sn.colour.yRef[i] (laneYield sn z i) :=
  tab_getElem _ i.val i.isLt

theorem laneTicket_k (sn : Snapshot) (z : Fin 6) :
    (laneTicket sn z).k = limitFactor sn.lTotal (laneSum sn z) := by
  simp only [laneSum, laneTicket_gain]
  rfl

theorem laneTicket_noHist (sn : Snapshot) (z : Fin 6) :
    (laneTicket sn z).marks.noHist = true ↔ sn.counts[z] = 0 := beq_iff_eq

theorem laneTicket_lowYield (sn : Snapshot) (z : Fin 6) :
    (laneTicket sn z).marks.lowYield = true ↔ ∃ i, laneYield sn z i = 0 := by
  have mark : (laneTicket sn z).marks.lowYield =
      (List.finRange 6).any fun i => laneYield sn z i == 0 := rfl
  rw [mark, List.any_eq_true]
  exact exists_congr fun i => (and_iff_right (List.mem_finRange i)).trans beq_iff_eq

theorem laneTicket_clamp {sn : Snapshot} (h : sn.gMin ≤ sn.gMax) (z : Fin 6) :
    (laneTicket sn z).marks.clamp = true ↔ ∃ i, laneYield sn z i ≠ 0 ∧
      (unclampedGain sn.colour.yRef[i] (laneYield sn z i) < sn.gMin ∨
        sn.gMax < unclampedGain sn.colour.yRef[i] (laneYield sn z i)) := by
  have mark : (laneTicket sn z).marks.clamp =
      (List.finRange 6).any fun i => gainClamped sn sn.colour.yRef[i] (laneYield sn z i) := rfl
  rw [mark, List.any_eq_true]
  exact exists_congr fun i => (and_iff_right (List.mem_finRange i)).trans (gainClamped_iff h _ _)

theorem laneTicket_gain_range {sn : Snapshot} (h : sn.gMin ≤ sn.gMax) (z i : Fin 6) :
    sn.gMin ≤ (laneTicket sn z).gains[i] ∧ (laneTicket sn z).gains[i] ≤ sn.gMax := by
  rw [laneTicket_gain]
  exact gainFor_range h _ _

/-- R150: S lies in 0..49,152. -/
theorem laneSum_range {sn : Snapshot} (h0 : 0 ≤ sn.gMin) (h : sn.gMin ≤ sn.gMax)
    (h1 : sn.gMax ≤ 8192) (hb : ∀ i : Fin 6, 0 ≤ sn.colour.bMax[i] ∧ sn.colour.bMax[i] ≤ 4096)
    (z : Fin 6) : 0 ≤ laneSum sn z ∧ laneSum sn z ≤ 49152 :=
  sum_six_range (most := 8192) fun i => by
    obtain ⟨low, high⟩ := laneTicket_gain_range h z i
    exact contribution_range (hb i) ⟨h0.trans low, high.trans h1⟩

/-- Settles O29, stage by stage: the yield, the gain with its clamp, the lane sum, the limit factor
and the marks. -/
theorem ticketWithinLimits : Obligations.TicketWithinLimits := by
  unfold Obligations.TicketWithinLimits
  intro sn z hMin hOrder hMax hTotal hStep hProfile t y wide sum
  have yieldRange (i : Fin 6) : 0 ≤ y i ∧ y i ≤ 1000 :=
    yieldAt_range hStep (hProfile i).2.2 t.dPred
  obtain ⟨sumLow, sumHigh⟩ : 0 ≤ sum ∧ sum ≤ 49152 :=
    laneSum_range (le_trans (by decide) hMin) hOrder hMax
      (fun i => ⟨(hProfile i).1, (hProfile i).2.1⟩) z
  have factor : t.k = limitFactor sn.lTotal sum := laneTicket_k sn z
  obtain ⟨kLow, kHigh⟩ := limitFactor_range hTotal sumHigh
  rw [← factor] at kLow kHigh
  refine ⟨fun i => ⟨fun h => yieldAt_below h _, fun h => yieldAt_beyond hStep h _,
      fun _ h0 h1 => yieldAt_between h0 h1 _⟩, rfl, fun i => ?gains, sumLow, sumHigh, kLow, kHigh,
    fun h => factor.trans (limitFactor_unlimited h), fun h => ?limited,
    laneTicket_noHist sn z, laneTicket_lowYield sn z, laneTicket_clamp hOrder z⟩
  case gains =>
    obtain ⟨low, high⟩ := laneTicket_gain_range hOrder z i
    have gain : t.gains[i] = gainFor sn sn.colour.yRef[i] (y i) := laneTicket_gain sn z i
    refine ⟨(yieldRange i).1, (yieldRange i).2, low, high, fun h => ?_, fun h => ?_⟩
    · rw [gain, h, gainFor_zero]
    · rw [gain, gainFor_yielding h]
      exact clampTo_eq_max_min_comm hOrder _
  case limited =>
    rw [factor]
    exact ⟨limitFactor_limited h, limitFactor_keeps_total (by omega) h⟩

/-! ## The engine's order of work -/

theorem startEngine_busy {s : State} {f : InFlight} (h : s.engine.inFlight = some f) :
    startEngine s = s := by
  simp only [startEngine, h]

theorem startEngine_none_ticketing {s : State} (h : ∀ b ∈ s.bands.queue, b.state ≠ .ticketing) :
    startEngine s = s := by
  cases hf : s.engine.inFlight with
  | some f => exact startEngine_busy hf
  | none =>
    have none_found : (s.bands.queue.find? fun b => b.state == .ticketing) = none :=
      List.find?_eq_none.mpr fun b hb => by simpa using h b hb
    simp only [startEngine, hf, none_found]

/-- R141: the oldest TICKETING band is taken, with its snapshot. -/
theorem startEngine_oldest {s : State} {before after : List Band} {b : Band}
    (hf : s.engine.inFlight = none) (hq : s.bands.queue = before ++ b :: after)
    (hb : b.state = .ticketing) (older : ∀ x ∈ before, x.state ≠ .ticketing) :
    startEngine s = { s with engine.inFlight := some ⟨b.id, takeSnapshot s b⟩ } := by
  have found : (s.bands.queue.find? fun b => b.state == .ticketing) = some b :=
    List.find?_eq_some_iff_append.mpr
      ⟨by rw [hb]; rfl, before, after, hq, fun x hx => by simpa using older x hx⟩
  simp only [startEngine, hf, found]

/-! ## The completion of a computation -/

/-- R154, step by step: the ticket is written, its report offered, TICKET_DONE raised, and the next
computation started. -/
theorem completeTicket_found {s : State} {f : InFlight} {b : Band}
    (hf : s.engine.inFlight = some f) (hb : findBand s f.band = some b) :
    completeTicket s = startEngine { raiseEvent .ticketDone f.band
      (settle (offerReport (ticketReport b (ticketOf f.snapshot)) (modifyBand f.band
        (fun x => { x with ticket := some (ticketOf f.snapshot), state := .ticketed }) s)))
      with engine.inFlight := none } := by
  simp only [completeTicket, hf, hb]

/-- Settles O28: the cases of a start, then the completion. What follows the ticket's writing is in the
frame of the reactions, so the queue stays as that writing left it. -/
theorem ticketsStartAndComplete : Obligations.TicketsStartAndComplete := by
  unfold Obligations.TicketsStartAndComplete
  refine ⟨fun s => ⟨fun f hf => startEngine_busy hf, startEngine_none_ticketing,
    fun before after b hf hq hb older => startEngine_oldest hf hq hb older⟩, ?_⟩
  intro s f b running hf hb t written reported
  have completed : completeTicket s = startEngine { reported with engine.inFlight := none } :=
    completeTicket_found hf hb
  have kept : ReactionFrame written reported :=
    ((offerReport_frame _ written).trans (settle_frame _)).trans (raiseEvent_frame _ _ _)
  refine ⟨?_, kept.queue, raiseEvent_flag _ _ _⟩
  rw [← completed]
  exact congrArg Host.Outcome.next (whenRuns_running running _)

end Sys2Proof.Machine

namespace Sys2Proof.Machine

/-! ## The reaction lock -/

theorem checkDwell_react (s : State) : (checkDwell s).react = s.react := by
  unfold checkDwell
  split
  · split
    · split <;> rfl
    · rfl
  · rfl

theorem refreshHeatSetpoints_react (s : State) : (refreshHeatSetpoints s).react = s.react := by
  unfold refreshHeatSetpoints
  dsimp only
  split
  · rw [checkDwell_react]
  · rfl

theorem raiseLimits_react (s : State) : (raiseLimits s).react = s.react := by
  unfold raiseLimits
  split <;> rfl

theorem storePlain_react (p : Point) (v : Int) (s : State) : (storePlain p v s).react = s.react := by
  cases p
  case countsPerMm =>
    simp only [storePlain]
    split <;> rfl
  case overheatMargin => exact raiseLimits_react _
  case standbyTemp =>
    simp only [storePlain]
    split
    · exact refreshHeatSetpoints_react _
    · rfl
  all_goals rfl

/-- A write of a point touches nothing of the reaction unit. -/
theorem settingWrite_react (p : Point) (v : Int) (s : State) :
    (settingWrite p v s).state.react = s.react := by
  have held (k : Fin 10) (f : LoopRec → LoopRec) :
      (enforceHold (refreshLoop (modifyLoop k f s) k)).react = s.react :=
    refreshLoop_react (modifyLoop k f s) k
  unfold settingWrite
  split
  · unfold writeLinkSilence silenceOnWrite
    dsimp only
    split
    · rfl
    · split <;> rfl
  · rfl
  · rfl
  · rfl
  · unfold writeLoopOutput
    dsimp only
    split <;> rfl
  · unfold writeLoopMode
    dsimp only
    split
    · exact held ..
    · split
      · exact held ..
      · rfl
  · unfold writeOutSource
    split <;> rfl
  · exact storePlain_react ..

theorem abandonRamp_react (s : State) : (abandonRamp s).react = s.react := by
  unfold abandonRamp
  split <;> rfl

theorem startEngine_react (s : State) : (startEngine s).react = s.react := by
  unfold startEngine
  split
  · rfl
  · split <;> rfl

theorem LockHonoured.of_seat {s t : State} (h : LockHonoured s) (lock : t.react.lock = s.react.lock)
    (executor : t.react.executor = s.react.executor) : LockHonoured t := by
  unfold LockHonoured
  rw [lock, executor]
  exact h

theorem LockHonoured.of_react {s t : State} (h : LockHonoured s) (e : t.react = s.react) :
    LockHonoured t := h.of_seat (by rw [e]) (by rw [e])

theorem LockHonoured.of_lineFrame {s t : State} (h : LockHonoured s) (f : LineFrame s t) :
    LockHonoured t := h.of_seat f.lock f.executor

/-- A free executor breaks no lock. -/
theorem lockHonoured_of_free {s : State} (h : s.react.executor = none) : LockHonoured s := by
  intro _ w hw
  rw [h] at hw
  cases hw

theorem offerReport_lockHonoured (r : Report) {s : State} (h : LockHonoured s) :
    LockHonoured (offerReport r s) := by
  obtain ⟨-, -, -, -, -, -, -, -, executor, -⟩ := offerReport_units r s
  exact h.of_seat (offerReport_lock r s) executor

theorem stopLine_lineFrame (s : State) : LineFrame s (stopLine s) := by
  unfold stopLine
  split
  · exact (beginStop_lineFrame s).trans (endStop_lineFrame _)
  · exact .refl s

/-- R166: a reaction gives the executor to no level that the lock bars, and leaves the lock. -/
theorem lockHonoured_kept : Kept LockHonoured where
  output _ _ h := h
  watch _ _ _ h := h
  levels _ _ h := h
  deferred _ _ h := h
  free _ _ := lockHonoured_of_free rfl
  hold _ _ _ barred := fun locked _ e => by cases e; exact barred locked
  raise k d s h := h.of_lineFrame (record_lineFrame k d s)
  write p v s h _ := h.of_react (settingWrite_react p v s)
  ramp t r s h := h.of_lineFrame (startRamp_lineFrame t r s)
  abandon s h := h.of_react (abandonRamp_react s)
  lift s h := h.of_lineFrame (liftNip_lineFrame s)
  stop s h := h.of_lineFrame (stopLine_lineFrame s)
  heatHold s h := h.of_lineFrame (setHeatHold_spec true s).1
  beacon _ h := h
  report _ _ h := offerReport_lockHonoured _ h
  safe s h _ := h.of_lineFrame (safeLine_lineFrame s)

theorem feedbackActive_lineFrame (s : State) : LineFrame s (feedbackActive s) := by
  unfold feedbackActive
  split
  · exact (nipField_lineFrame _ s).trans (engageComplete_lineFrame _)
  · exact nipField_lineFrame _ s
  all_goals exact .refl s

theorem failedEngage_lineFrame (s : State) : LineFrame s (failedEngage s) := by
  unfold failedEngage
  split
  · exact endEngage_lineFrame s
  · exact .refl s

theorem nipLotAtLine_lineFrame (old new : Option Lot) (s : State) :
    LineFrame s (nipLotAtLine old new s) := by
  unfold nipLotAtLine
  dsimp only
  split
  · exact .refl s
  · split
    · exact (setLineTarget_spec ..).1.trans (rampPhase_lineFrame _)
    · exact .refl s

/-- R177: the owners set the lock once no level but level 0 holds the executor. -/
theorem lockHonoured_ownerKept (c : Instr) : OwnerKept LockHonoured c where
  toKept := lockHonoured_kept
  count _ _ h := h
  position _ _ h := h
  speed _ h := h
  step s h := h.of_lineFrame (stepReference_lineFrame s)
  dwellEnd s h _ := h.of_lineFrame (setMode_spec _ _ s).1
  dwell s h := h.of_react (checkDwell_react s)
  nipState _ _ h := h
  feedback s h := h.of_lineFrame (feedbackActive_lineFrame s)
  failed s h := h.of_lineFrame (failedEngage_lineFrame s)
  beginStop s h _ := h.of_lineFrame (beginStop_lineFrame s)
  endStop s h := h.of_lineFrame (endStop_lineFrame s)
  heat s h _ := h.of_lineFrame (startHeat_lineFrame s)
  cool s h _ := h.of_lineFrame (startCool_lineFrame s)
  run s h _ := h.of_lineFrame (startRun_lineFrame s)
  thread s h _ := h.of_lineFrame (startThread_lineFrame s)
  clear s h _ _ := h.of_lineFrame ((beaconField_lineFrame false s).trans (setMode_spec ..).1)
  beaconOff _ h := h
  nipFb _ _ h := h
  guardClosed _ _ h := h
  estopOn _ h _ := h
  estopOff _ h := h
  idlePins _ _ h _ _ := h
  scanner _ _ h _ := h
  channel _ _ _ h := h
  loopFresh _ _ h := h
  loopStale k s h := h.of_react (refreshLoop_react (modifyLoop k _ s) k)
  tension t s h := h.of_react (refreshLoop_react (modifyLoop (spanLoop t) _ s) (spanLoop t))
  compute _ _ _ h := h
  limit _ _ _ _ h := h
  overOn _ _ h := h
  overOff _ _ h := h
  span _ _ _ h := h
  window _ h _ := h
  onTime _ _ h := h
  guardedWrite p v s h _ _ := h.of_react (settingWrite_react p v s)
  heatLot _ _ h _ := h.of_react ((raiseLimits_react _).trans (refreshHeatSetpoints_react _))
  nipLot l s h _ := (show LockHonoured (refreshTensionSetpoints { s with profiles.nip := l }) from
    h).of_lineFrame (nipLotAtLine_lineFrame ..)
  lot _ _ h _ := h
  colour _ _ _ h _ _ := h
  fabric _ _ _ h _ _ := h
  accept _ _ _ _ _ h _ _ _ _ _ := h.of_react (startEngine_react _)
  edit _ _ _ h _ _ := h
  remove _ _ h := h
  idle _ h := h
  engine s h := h.of_react (startEngine_react s)
  admitEntries _ _ _ _ h := h.of_react (by unfold offerHistory; split <;> rfl)
  clearRings _ _ h := h
  lockOn _ _ zero := fun _ => zero
  lockOff _ _ := fun locked => by cases locked
  offer r _ h := offerReport_lockHonoured r h
  flags _ _ h := h.of_react (by unfold clearFlags; dsimp only; split <;> rfl)
  mask _ _ h := h
  faultClear _ h _ := h
  restarting _ h := h
  nvm _ _ h := h

theorem loadStore_lockHonoured {s : State} (h : LockHonoured s) : LockHonoured (loadStore s) := by
  unfold loadStore
  split
  · exact h
  · next c _ =>
    have loaded : LockHonoured (c.points.foldl loadPoint s) :=
      foldl_kept _ (loadPoint_kept fun p v t h => h.of_react (settingWrite_react p v t)) _ s h
    exact loaded

/-- R181: a start leaves the lock clear and the executor free; the link touches neither. -/
theorem lockHonoured_stepKept (c : Instr) : StepKept LockHonoured c where
  toOwnerKept := lockHonoured_ownerKept c
  receiver _ _ h := h
  buffered _ _ h _ := h
  silence _ _ h := h
  dequeued s h := h.of_react (dequeue_react s)
  reply _ _ h := h.of_react (transmitNext_react _)
  sent _ h := h.of_react (transmitNext_react _)
  blank _ _ _ _ _ _ _ _ := lockHonoured_of_free rfl
  load _ h _ _ _ := loadStore_lockHonoured h

/-- Settles O58: every operation of a command either leaves the lock and the executor, frees the executor,
or gives it to a level that the lock does not bar. -/
theorem lockHonouredKept : Obligations.LockHonouredKept := by
  unfold Obligations.LockHonouredKept
  exact fun _ _ h e => step_kept lockHonoured_stepKept (fun _ _ h => h) h e

end Sys2Proof.Machine

namespace Sys2Proof.Machine

/-! ## Levels, awards and runs -/

/-- R164, Table 9-2: a level is WAITING while it is enabled and has a claim that it does not hold the
executor for. -/
theorem levelState_waiting_iff (s : State) (l : Fin 16) : levelState s l = .waiting ↔
    s.react.executor ≠ some l ∧ (s.react.levels[l]).defn.enable = true ∧
      ((s.react.levels[l]).pending = true ∨ (s.react.levels[l]).runPos ≠ none) := by
  rw [← Option.isSome_iff_ne_none, ← Bool.or_eq_true]
  unfold levelState
  dsimp only
  split_ifs with runs enabled claim posted
  · exact iff_of_false nofun fun h => h.1 runs
  · exact iff_of_true rfl ⟨runs, enabled, claim⟩
  · exact iff_of_false nofun fun h => claim h.2.2
  · exact iff_of_false nofun fun h => enabled h.2.1
  · exact iff_of_false nofun fun h => enabled h.2.1

theorem levelState_running_iff (s : State) (l : Fin 16) :
    levelState s l = .running ↔ s.react.executor = some l := by
  unfold levelState
  dsimp only
  split_ifs with runs enabled claim posted
  · exact iff_of_true rfl runs
  all_goals exact iff_of_false nofun runs

theorem modifyLevel_level (l : Fin 16) (f : Level → Level) (s : State) (m : Fin 16) :
    (modifyLevel l f s).react.levels[m] = if m = l then f s.react.levels[m] else s.react.levels[m] := by
  simp only [Fin.getElem_fin, modifyLevel_getElem, Fin.ext_iff]

theorem award_executor (w : Fin 16) (s : State) : (award w s).react.executor = some w := rfl

/-- R167: what an award makes of the level's record. -/
def Level.awarded (x : Level) : Level :=
  match x.runPos with
  | none => { x with pending := false, runCause := x.cause, runPos := some 1 }
  | some _ => x

theorem Level.awarded_resumed {x : Level} (h : x.runPos ≠ none) : x.awarded = x := by
  obtain ⟨p, hp⟩ := Option.ne_none_iff_exists'.mp h
  rw [Level.awarded, hp]

theorem award_levels (w : Fin 16) (s : State) :
    (award w s).react.levels = (modifyLevel w Level.awarded s).react.levels := rfl

/-- R167: a level that holds the executor again goes on where its run stands. -/
theorem award_resumed {s : State} {w : Fin 16} (h : (s.react.levels[w]).runPos ≠ none) :
    (award w s).react.levels[w] = s.react.levels[w] := by
  rw [award_levels, modifyLevel_level, if_pos rfl, Level.awarded_resumed h]

theorem award_other {s : State} {w l : Fin 16} (h : l ≠ w) :
    (award w s).react.levels[l] = s.react.levels[l] := by
  rw [award_levels, modifyLevel_level, if_neg h]

/-! ### A run -/

theorem workRun_idle {s : State} {w : Fin 16} (h : (s.react.levels[w]).runPos = none) (n : Nat) :
    workRun n w s = s := by
  cases n with
  | zero => rfl
  | succ n => rw [workRun, h]

/-- R169: a run past its last action completes. -/
theorem workRun_past {s : State} {w : Fin 16} {p : Nat} (hp : (s.react.levels[w]).runPos = some p)
    (ha : (s.react.levels[w]).defn.actions[p - 1]? = none) (n : Nat) :
    workRun (n + 1) w s = completeRun w s := by
  rw [workRun, hp]
  dsimp only
  rw [ha]

/-- R167: an action starts, and its points are handed over; it waits, or the next one starts. -/
theorem workRun_action {s : State} {w : Fin 16} {p : Nat} {a : Action}
    (hp : (s.react.levels[w]).runPos = some p)
    (ha : (s.react.levels[w]).defn.actions[p - 1]? = some a) (n : Nat) :
    workRun (n + 1) w s = if actionWaits a (publish s (startAction w a s)) = true then
        publish s (startAction w a s)
      else workRun n w (advanceRun w (publish s (startAction w a s))) := by
  rw [workRun, hp]
  dsimp only
  rw [ha]

/-- R169: a completed run frees the executor and its level, and raises LEVEL_DONE. -/
theorem completeRun_units (w : Fin 16) (s : State) :
    (completeRun w s).react.executor = none ∧
      (completeRun w s).react.levels = upd s.react.levels w
        { s.react.levels[w] with runPos := none, runCause := none } ∧
      hasKind (completeRun w s).events.set .levelDone = true := by
  unfold completeRun
  dsimp only
  obtain ⟨-, -, -, -, -, -, -, levels, executor, -, -, raised⟩ := record_units .levelDone w.val
    { modifyLevel w (fun l => { l with runPos := none, runCause := none }) s with react.executor := none }
  exact ⟨executor, levels, raised⟩

/-! ### What an action leaves of the levels -/

/-- An action other than SAFE leaves the levels; no action moves the executor. -/
theorem startAction_seat (w : Fin 16) (a : Action) (s : State) :
    (startAction w a s).react.executor = s.react.executor ∧
      (a ≠ .safe → (startAction w a s).react.levels = s.react.levels) := by
  have written (d : Nat) (v : Int) : (writeAsReaction d v s).react = s.react := by
    unfold writeAsReaction
    split
    · rfl
    · split
      · exact settingWrite_react _ v s
      all_goals rfl
  have framed {t : State} (f : LineFrame s t) :
      t.react.executor = s.react.executor ∧ (a ≠ .safe → t.react.levels = s.react.levels) :=
    ⟨f.executor, fun _ => f.levels⟩
  cases a with
  | set d v => exact ⟨by rw [startAction, written], fun _ => by rw [startAction, written]⟩
  | copy d r => exact ⟨by rw [startAction, written], fun _ => by rw [startAction, written]⟩
  | ramp t r => exact framed (startRamp_lineFrame t r s)
  | lift => exact framed (liftNip_lineFrame s)
  | stop => exact framed (stopLine_lineFrame s)
  | holdHeat => exact framed (setHeatHold_spec true s).1
  | beacon => exact framed (beaconField_lineFrame true s)
  | report =>
    obtain ⟨-, -, -, -, -, -, -, levels, executor, -⟩ := offerReport_units
      (.reaction w (s.react.levels[w]).runCause s.line.position s.line.mode) s
    exact ⟨executor, fun _ => levels⟩
  | safe =>
    refine ⟨?_, fun h => (h rfl).elim⟩
    show (safeAction s).react.executor = _
    unfold safeAction
    split
    · rfl
    · exact (safeLine_lineFrame s).executor

theorem abandonAction_react (s : State) : (abandonAction s).react.levels = s.react.levels ∧
    (abandonAction s).react.executor = s.react.executor := by
  unfold abandonAction
  split
  · simp [abandonRamp_react]
  · exact ⟨rfl, rfl⟩

/-- R168: a suspension keeps every level as it stands, its run position too. -/
theorem suspend_levels (s : State) : (suspend s).react.levels = s.react.levels := by
  unfold suspend
  dsimp only
  exact (publish_react _ _).1.trans (abandonAction_react s).1

/-! ### Claims -/

/-- A level has nothing that it had not before: no new claim to the executor. -/
structure Level.Claims (x y : Level) : Prop where
  defn : y.defn = x.defn
  pending : y.pending = true → x.pending = true
  runPos : y.runPos ≠ none → x.runPos ≠ none

/-- No level has a claim that it had not before. -/
def NoNewClaim (s t : State) : Prop := ∀ l : Fin 16, (s.react.levels[l]).Claims t.react.levels[l]

theorem NoNewClaim.of_levels {s t : State} (h : t.react.levels = s.react.levels) : NoNewClaim s t :=
  fun l => by rw [h]; exact ⟨rfl, id, id⟩

theorem NoNewClaim.trans {s t u : State} (h : NoNewClaim s t) (g : NoNewClaim t u) : NoNewClaim s u :=
  fun l => ⟨(g l).defn.trans (h l).defn, (h l).pending ∘ (g l).pending, (h l).runPos ∘ (g l).runPos⟩

theorem modifyLevel_noNewClaim {w : Fin 16} {f : Level → Level} {s : State}
    (h : (s.react.levels[w]).Claims (f s.react.levels[w])) : NoNewClaim s (modifyLevel w f s) := by
  intro l
  rw [modifyLevel_level]
  split
  · next e => rw [e]; exact h
  · exact ⟨rfl, id, id⟩

/-- R176: an entry into SAFE ends the claims of levels 1 to 15. -/
theorem safeAction_noNewClaim (s : State) : NoNewClaim s (safeAction s) := by
  unfold safeAction
  split
  · exact .of_levels rfl
  · refine (NoNewClaim.of_levels (safeLine_lineFrame s).levels).trans fun l => ?_
    rw [endLevelWork_level]
    split
    · exact ⟨rfl, id, id⟩
    · exact ⟨rfl, fun h => (Bool.false_ne_true h).elim, fun h => (h rfl).elim⟩

theorem startAction_noNewClaim (w : Fin 16) (a : Action) (s : State) : NoNewClaim s (startAction w a s) := by
  by_cases h : a = .safe
  · subst h
    exact safeAction_noNewClaim s
  · exact .of_levels ((startAction_seat w a s).2 h)

theorem advanceRun_executor (w : Fin 16) (s : State) :
    (advanceRun w s).react.executor = s.react.executor := rfl

theorem advanceRun_noNewClaim (w : Fin 16) (s : State) : NoNewClaim s (advanceRun w s) :=
  modifyLevel_noNewClaim ⟨rfl, id, by simp⟩

/-- What the run of the level w, which holds the executor, leaves: no new claim, and the executor with w, or
free and w's run at its end. -/
structure RunLeft (w : Fin 16) (s t : State) : Prop where
  claims : NoNewClaim s t
  seat : t.react.executor = some w ∨
    (t.react.executor = none ∧ (t.react.levels[w]).runPos = none)

theorem completeRun_left (w : Fin 16) (s : State) : RunLeft w s (completeRun w s) := by
  obtain ⟨executor, levels, -⟩ := completeRun_units w s
  have done : NoNewClaim s (modifyLevel w (fun l => { l with runPos := none, runCause := none }) s) :=
    modifyLevel_noNewClaim ⟨rfl, id, fun h => (h rfl).elim⟩
  refine ⟨done.trans (.of_levels levels), .inr ⟨executor, ?_⟩⟩
  simp [levels]

theorem workRun_left (w : Fin 16) (n : Nat) : ∀ s, s.react.executor = some w →
    RunLeft w s (workRun n w s) := by
  induction n with
  | zero => exact fun s h => ⟨.of_levels rfl, .inl h⟩
  | succ n ih =>
    intro s h
    cases hp : (s.react.levels[w]).runPos with
    | none => rw [workRun_idle hp]; exact ⟨.of_levels rfl, .inl h⟩
    | some p =>
      cases ha : (s.react.levels[w]).defn.actions[p - 1]? with
      | none => rw [workRun_past hp ha]; exact completeRun_left w s
      | some a =>
        have started : NoNewClaim s (publish s (startAction w a s)) :=
          (startAction_noNewClaim w a s).trans (.of_levels (publish_react _ _).1)
        have held : (publish s (startAction w a s)).react.executor = some w :=
          (OwnerKept.publish_executor _ _).trans ((startAction_seat w a s).1.trans h)
        rw [workRun_action hp ha]
        split
        · exact ⟨started, .inl held⟩
        · obtain ⟨claims, seat⟩ := ih (advanceRun w (publish s (startAction w a s)))
            ((advanceRun_executor ..).trans held)
          exact ⟨started.trans ((advanceRun_noNewClaim w _).trans claims), seat⟩

/-- R166: a run leaves the lock. -/
theorem workRun_lock (n : Nat) (w : Fin 16) (s : State) : (workRun n w s).react.lock = s.react.lock :=
  ((reactionFrame_kept s).workRun w n s (.refl s)).lock

/-! ### The rounds of an auction -/

theorem isCandidate_iff (s : State) (l : Fin 16) : isCandidate s l = true ↔
    levelState s l = .waiting ∧ (s.react.lock = true → l.val = 0) := by
  unfold isCandidate
  rw [Bool.and_eq_true, beq_iff_eq, Bool.or_eq_true, beq_iff_eq, imp_iff_not_or,
    Bool.not_eq_eq_eq_not, Bool.not_true, Bool.not_eq_true]

theorem auctionWinner_eq_some_iff (s : State) (w : Fin 16) : auctionWinner s = some w ↔
    isCandidate s w = true ∧ ∀ l, l < w → isCandidate s l = false := by
  simp only [auctionWinner, ← Fin.find?_eq_find?_finRange, Fin.find?_eq_some_iff, Bool.eq_false_iff, ne_eq]

theorem auctionWinner_eq_none_iff (s : State) :
    auctionWinner s = none ↔ ∀ l, isCandidate s l = false := by
  simp only [auctionWinner, List.find?_eq_none, List.mem_finRange, forall_const, Bool.not_eq_true]

theorem outranksHolder_iff (s : State) (w : Fin 16) : outranksHolder s w = true ↔
    ∀ m, s.react.executor = some m → w < m := by
  unfold outranksHolder
  cases s.react.executor with
  | none => exact iff_of_true rfl nofun
  | some m => simp only [decide_eq_true_eq, Option.some.injEq, forall_eq', Fin.val_fin_lt]

theorem vacate_free {s : State} (h : s.react.executor = none) : vacate s = s := by
  simp only [vacate, h]

theorem vacate_held {s : State} {m : Fin 16} (h : s.react.executor = some m) : vacate s = suspend s := by
  simp only [vacate, h]

theorem vacate_levels (s : State) : (vacate s).react.levels = s.react.levels := by
  unfold vacate
  split
  · rfl
  · exact suspend_levels s

/-- The state after one round that the level w wins. -/
def roundWon (w : Fin 16) (s : State) : State := workRun runFuel w (award w (vacate s))

theorem holdAuctions_none {s : State} (h : auctionWinner s = none) (n : Nat) : holdAuctions n s = s := by
  cases n with
  | zero => rfl
  | succ n => rw [holdAuctions, h]

theorem holdAuctions_won {s : State} {w : Fin 16} (h : auctionWinner s = some w)
    (ho : ∀ m, s.react.executor = some m → w < m) (n : Nat) :
    holdAuctions (n + 1) s = holdAuctions n (roundWon w s) := by
  rw [holdAuctions, h]
  exact if_pos ((outranksHolder_iff s w).mpr ho)

theorem holdAuctions_outranked {s : State} {w m : Fin 16} (h : auctionWinner s = some w)
    (hm : s.react.executor = some m) (hle : m ≤ w) (n : Nat) : holdAuctions n s = s := by
  cases n with
  | zero => rfl
  | succ n =>
    rw [holdAuctions, h]
    exact if_neg fun ho => absurd ((outranksHolder_iff s w).mp ho m hm) (not_lt.mpr hle)

/-- R166: no level that the lock does not bar waits above the holder. -/
def NoClaimLeft (s : State) : Prop :=
  ∀ l, isCandidate s l = true → ∃ m, s.react.executor = some m ∧ m < l

theorem noClaimLeft_of_none {s : State} (h : auctionWinner s = none) : NoClaimLeft s := by
  intro l hl
  rw [(auctionWinner_eq_none_iff s).mp h l] at hl
  cases hl

theorem noClaimLeft_of_outranked {s : State} {w m : Fin 16} (h : auctionWinner s = some w)
    (hm : s.react.executor = some m) (hle : m ≤ w) : NoClaimLeft s := by
  obtain ⟨hw, lowest⟩ := (auctionWinner_eq_some_iff s w).mp h
  intro l hl
  have hwl : w ≤ l := by
    by_contra hc
    rw [lowest l (not_le.mp hc)] at hl
    cases hl
  have waits := ((levelState_waiting_iff s l).mp ((isCandidate_iff s l).mp hl).1).1
  refine ⟨m, hm, lt_of_le_of_ne (hle.trans hwl) fun e => waits ?_⟩
  rw [hm, e]

theorem holdAuctions_settled {s : State} (h : NoClaimLeft s) (n : Nat) : holdAuctions n s = s := by
  cases hw : auctionWinner s with
  | none => exact holdAuctions_none hw n
  | some w =>
    obtain ⟨m, hm, hlt⟩ := h w (auctionWinner_candidate hw)
    exact holdAuctions_outranked hw hm hlt.le n

section Round

variable {s : State} {w : Fin 16} (hw : auctionWinner s = some w)
  (ho : ∀ m, s.react.executor = some m → w < m)

theorem roundWon_left (w : Fin 16) (s : State) : RunLeft w (award w (vacate s)) (roundWon w s) :=
  workRun_left w runFuel _ (award_executor w _)

theorem roundWon_lock (w : Fin 16) (s : State) : (roundWon w s).react.lock = s.react.lock :=
  (workRun_lock ..).trans (vacate_lock s)

/-- A round gives no level but its winner a claim that it had not. -/
theorem roundWon_claims (w : Fin 16) (s : State) {l : Fin 16} (h : l ≠ w) :
    (s.react.levels[l]).Claims (roundWon w s).react.levels[l] := by
  have left := (roundWon_left w s).claims l
  rw [award_other h, vacate_levels] at left
  exact left

include hw ho in
/-- The levels that wait at the end of a round do so behind the winner, if it keeps the executor. -/
theorem roundWon_held (held : (roundWon w s).react.executor = some w) : NoClaimLeft (roundWon w s) := by
  obtain ⟨-, lowest⟩ := (auctionWinner_eq_some_iff s w).mp hw
  intro l hl
  obtain ⟨waits, barred⟩ := (isCandidate_iff _ l).mp hl
  obtain ⟨notHeld, enabled, claim⟩ := (levelState_waiting_iff _ l).mp waits
  have hne : l ≠ w := fun e => notHeld (e ▸ held)
  have old := roundWon_claims w s hne
  refine ⟨w, held, lt_of_not_ge fun hle => ?_⟩
  have hlt : l < w := lt_of_le_of_ne hle hne
  have candidate : isCandidate s l = true := by
    refine (isCandidate_iff s l).mpr ⟨(levelState_waiting_iff s l).mpr ⟨fun e => ?_, ?_, ?_⟩, ?_⟩
    · exact absurd (ho l e) (not_lt.mpr hle)
    · rw [← old.defn]; exact enabled
    · exact claim.imp old.pending old.runPos
    · rw [← roundWon_lock w s]; exact barred
  rw [lowest l hlt] at candidate
  cases candidate

/-- The claims of a level: to a new run, and to go on with the run that it has. -/
def Level.claims (x : Level) : Nat := x.pending.toNat + x.runPos.isSome.toNat

/-- The claims of the sixteen levels. -/
def claims (s : State) : Nat := ∑ l : Fin 16, (s.react.levels[l]).claims

theorem Level.Claims.claims_le {x y : Level} (h : x.Claims y) : y.claims ≤ x.claims := by
  obtain ⟨-, hp, hr⟩ := h
  unfold Level.claims
  refine Nat.add_le_add (Bool.toNat_le_toNat hp) (Bool.toNat_le_toNat fun e => ?_)
  exact Option.isSome_iff_ne_none.mpr (hr (Option.isSome_iff_ne_none.mp e))

include hw in
/-- A round whose run completes ends a claim of its winner: to a new run, or the run that it resumed. -/
theorem roundWon_winner (free : (roundWon w s).react.executor = none) :
    ((roundWon w s).react.levels[w]).claims < (s.react.levels[w]).claims := by
  obtain ⟨-, -, claim⟩ := (levelState_waiting_iff s w).mp
    ((isCandidate_iff s w).mp (auctionWinner_candidate hw)).1
  obtain ⟨left, seat⟩ := roundWon_left w s
  have ended : ((roundWon w s).react.levels[w]).runPos = none := by
    rcases seat with held | ⟨-, done⟩
    · rw [free] at held
      cases held
    · exact done
  have kept := (left w).pending
  simp only [Level.claims, ended, Option.isSome_none, Bool.toNat_false, Nat.add_zero]
  cases hr : (s.react.levels[w]).runPos with
  | none =>
    have pending : (s.react.levels[w]).pending = true := claim.resolve_right (not_not.mpr hr)
    rw [award_level (by rw [vacate_levels]; exact hr)] at kept
    have spent : ((roundWon w s).react.levels[w]).pending = false :=
      Bool.eq_false_iff.mpr fun h => Bool.false_ne_true (kept h)
    rw [spent, pending]
    decide
  | some p =>
    rw [award_resumed (by rw [vacate_levels, hr]; nofun), vacate_levels] at kept
    exact Nat.lt_succ_of_le (Bool.toNat_le_toNat kept)

include hw in
theorem roundWon_freed (free : (roundWon w s).react.executor = none) : claims (roundWon w s) < claims s := by
  refine Finset.sum_lt_sum (fun l _ => ?_) ⟨w, Finset.mem_univ w, roundWon_winner hw free⟩
  by_cases h : l = w
  · rw [h]
    exact (roundWon_winner hw free).le
  · exact (roundWon_claims w s h).claims_le

end Round

theorem claims_le (s : State) : claims s ≤ 32 := by
  have two (l : Fin 16) : (s.react.levels[l]).claims ≤ 2 :=
    Nat.add_le_add (Bool.toNat_le _) (Bool.toNat_le _)
  exact (Finset.sum_le_card_nsmul Finset.univ _ 2 fun l _ => two l).trans (by decide)

theorem holdAuctions_noClaimLeft (n : Nat) : ∀ s, claims s < n → NoClaimLeft (holdAuctions n s) := by
  induction n with
  | zero => exact fun s h => absurd h (Nat.not_lt_zero _)
  | succ n ih =>
    intro s h
    cases hw : auctionWinner s with
    | none => rw [holdAuctions_none hw]; exact noClaimLeft_of_none hw
    | some w =>
      by_cases ho : ∀ m, s.react.executor = some m → w < m
      · rw [holdAuctions_won hw ho]
        rcases (roundWon_left w s).seat with held | ⟨free, -⟩
        · rw [holdAuctions_settled (roundWon_held hw ho held)]
          exact roundWon_held hw ho held
        · have := roundWon_freed hw free
          exact ih _ (by omega)
      · obtain ⟨m, hm, hle⟩ : ∃ m, s.react.executor = some m ∧ m ≤ w := by
          simpa only [not_forall, exists_prop, not_lt] using ho
        rw [holdAuctions_outranked hw hm hle]
        exact noClaimLeft_of_outranked hw hm hle

/-- Settles O39: an auction round by who wins it, and by who holds the executor then; the fuel suffices since
every round but the last ends a claim, and sixteen levels have at most two each. -/
theorem auctionsLeaveNoClaim : Obligations.AuctionsLeaveNoClaim := by
  unfold Obligations.AuctionsLeaveNoClaim
  refine ⟨fun s w => ?winner, fun s h => holdAuctions_none h _,
    fun s w m hw hm hle => holdAuctions_outranked hw hm hle _, fun s => rfl,
    fun n s w hw => ⟨fun he => ?free, fun m hm hlt => ⟨?held, OwnerKept.suspend_executor s⟩,
      award_executor w s⟩, fun s l hl hlock => ?settled⟩
  case winner =>
    rw [auctionWinner_eq_some_iff, isCandidate_iff, and_assoc]
    refine and_congr_right fun _ => and_congr_right fun _ => forall₂_congr fun l _ => ?_
    rw [Bool.eq_false_iff, ne_eq, isCandidate_iff, not_and, Classical.not_imp]
  case free =>
    rw [holdAuctions_won hw (fun m hm => by rw [he] at hm; cases hm), roundWon, vacate_free he]
  case held =>
    rw [holdAuctions_won hw (fun k hk => by rw [hm] at hk; cases hk; exact hlt), roundWon, vacate_held hm]
  case settled =>
    have fuel : claims s < auctionFuel := lt_of_le_of_lt (claims_le s) (by decide)
    exact holdAuctions_noClaimLeft auctionFuel s fuel l ((isCandidate_iff _ l).mpr ⟨hl, hlock⟩)

end Sys2Proof.Machine

namespace Sys2Proof.Machine

/-! ## Offers to the levels -/

/-- R165: the occurrences that trigger a level: that of its record, and for level 0 its three fixed kinds. -/
theorem triggeredByEvent_iff (s : State) (k : EventKind) (l : Fin 16) : triggeredByEvent s k l = true ↔
    (s.react.levels[l]).defn.trigger = .event k ∨
      (l.val = 0 ∧ (k = .estop ∨ k = .guard ∨ k = .linkSilent)) := by
  simp only [triggeredByEvent, Bool.or_eq_true, Bool.and_eq_true, beq_iff_eq, or_assoc]

theorem setPending_level (named : Fin 16 → Bool) (cause : Cause) (s : State) (l : Fin 16) :
    (setPending named cause s).react.levels[l] =
      if named l = true then { s.react.levels[l] with pending := true, cause := some cause }
      else s.react.levels[l] := by
  simp only [setPending, Fin.getElem_fin, tab_getElem]

/-! ## Awards and suspensions -/

/-- R167: a level with no run under way begins a new one. -/
theorem award_new {s : State} {w : Fin 16} (h : (s.react.levels[w]).runPos = none) :
    award w s = { s with
      react.levels := upd s.react.levels w { s.react.levels[w] with
        pending := false, runCause := (s.react.levels[w]).cause, runPos := some 1 }
      react.executor := some w } := by
  have begun : (s.react.levels[w]).awarded = { s.react.levels[w] with
      pending := false, runCause := (s.react.levels[w]).cause, runPos := some 1 } := by
    rw [Level.awarded, h]
  rw [← begun]
  rfl

theorem handToWatch_line (old new : State) (a : Option (Fin 16)) (s : State) (w : Fin 16) :
    (handToWatch old new a s w).line = s.line := by
  unfold handToWatch judgeWatch
  split
  · rfl
  · split
    · dsimp only
      split <;> rfl
    · rfl

/-- R56: a hand-over leaves the line unit. -/
theorem publish_line (old new : State) : (publish old new).line = new.line := by
  have output (t : State) (n : Fin 5) (h : t.line = new.line) :
      (handToOutput old none t n).line = new.line := by
    unfold handToOutput
    split
    · exact h
    · split <;> exact h
  unfold publish publishArrival
  generalize List.finRange 16 = l
  exact foldl_kept (P := fun t => t.line = new.line) (handToWatch old (settleOutputs old none 5 new) none)
    (fun t w h => (handToWatch_line ..).trans h) l _
    (settleOutputs_kept (P := fun t => t.line = new.line) output 5 new rfl)

theorem abandonAction_ramp {s : State} {t r : Int} (h : runningAction s = some (.ramp t r)) :
    abandonAction s = dropReports (abandonRamp s) := by
  rw [abandonAction, h]

theorem suspend_line (s : State) : (suspend s).line = (abandonAction s).line := publish_line s _

/-- R8, R168: an owned ramp stops where the reference stands. -/
theorem abandonRamp_owned {s : State} (h : s.line.owner = .action) : abandonRamp s = { s with
    line.target := s.line.reference
    line.owner := .line
    line.phase := if s.line.mode = .running then .steady else s.line.phase } := by
  rw [abandonRamp, h]

/-! ## Waiting and completion -/

theorem actionWaits_iff (a : Action) (s : State) : actionWaits a s = true ↔
    ((∃ t r, a = .ramp t r) ∧ s.line.owner = .action) ∨ (a = .lift ∧ s.line.nip ≠ .opened) := by
  cases a <;> simp [actionWaits]

theorem completes_iff (d : WaitKind) (a : Action) : completes d a = true ↔
    (d = .ramp ∧ ∃ t r, a = .ramp t r) ∨ (d = .lift ∧ a = .lift) := by
  cases d <;> cases a <;> simp [completes]

/-- R167: the action at which the run of the level that holds the executor stands. -/
theorem runningAction_iff (s : State) (a : Action) : runningAction s = some a ↔
    ∃ w p, s.react.executor = some w ∧ (s.react.levels[w]).runPos = some p ∧
      (s.react.levels[w]).defn.actions[p - 1]? = some a := by
  unfold runningAction
  split
  · next free => exact iff_of_false nofun fun ⟨w, _, held, _⟩ => by rw [free] at held; cases held
  · next w held =>
    split
    · next idle =>
      refine iff_of_false nofun fun ⟨v, p, hv, hp, _⟩ => ?_
      cases held.symm.trans hv
      cases idle.symm.trans hp
    · next p hp =>
      refine ⟨fun ha => ⟨w, p, held, hp, ha⟩, fun ⟨v, q, hv, hq, ha⟩ => ?_⟩
      cases held.symm.trans hv
      cases hp.symm.trans hq
      exact ha

theorem advanceRun_at {s : State} {w : Fin 16} {p : Nat} (h : (s.react.levels[w]).runPos = some p) :
    advanceRun w s = { s with
      react.levels := upd s.react.levels w { s.react.levels[w] with runPos := some (p + 1) } } := by
  have moved : (s.react.levels[w]).runPos.map (· + 1) = some (p + 1) := by rw [h]; rfl
  rw [← moved]
  rfl

/-- R170: a report reaches the level that waits on the action it completes. -/
theorem takeActionDone_waits {s : State} {w : Fin 16} {p : Nat} {a : Action} {d : WaitKind}
    (he : s.react.executor = some w) (hp : (s.react.levels[w]).runPos = some p)
    (ha : (s.react.levels[w]).defn.actions[p - 1]? = some a) (hd : completes d a = true) :
    takeActionDone d s = auction (workRun runFuel w (advanceRun w s)) := by
  have stands : runningAction s = some a := (runningAction_iff s a).mpr ⟨w, p, he, hp, ha⟩
  unfold takeActionDone
  rw [he, stands]
  exact if_pos hd

/-- R170: and no other. -/
theorem takeActionDone_lost {s : State} {d : WaitKind}
    (h : ∀ a, runningAction s = some a → completes d a = false) : takeActionDone d s = s := by
  unfold takeActionDone
  split
  · next w a _ stands => rw [h a stands]; rfl
  · rfl

/-- Settles O38: the offer by the levels that it names; the award, the run and the suspension by where the run
stands; the report of completion by the action at which it stands. -/
theorem levelsTriggeredAndRun : Obligations.LevelsTriggeredAndRun := by
  unfold Obligations.LevelsTriggeredAndRun
  refine ⟨fun k detail s => ?offer, fun n w s => ⟨award_new, fun h => ⟨award_resumed h, rfl⟩,
    fun p hp hlen => ?past, fun p a hp ha => ?action,
    fun _ => ⟨OwnerKept.suspend_executor s, suspend_levels s, fun t r hr ho => ?ramp⟩⟩, rfl, actionWaits_iff, fun done s => ⟨fun w p ⟨he, hp, a, ha, hd⟩ => ?done,
      fun hn => takeActionDone_lost fun a stands => ?lost⟩⟩
  case offer =>
    refine ⟨_, rfl, fun l hl => ?_, fun l hl => ?_, rfl⟩
    · rw [setPending_level, if_pos ((triggeredByEvent_iff s k l).mpr hl)]
    · rw [setPending_level, if_neg (fun h => hl ((triggeredByEvent_iff s k l).mp h))]
  case past =>
    have ended : (s.react.levels[w]).defn.actions[p - 1]? = none := List.getElem?_eq_none (by omega)
    rw [workRun_past hp ended]
    exact completeRun_units w s
  case action =>
    rw [workRun_action hp ha]
    exact ⟨fun h => if_pos h, fun h => if_neg (Bool.eq_false_iff.mp h)⟩
  case ramp =>
    rw [suspend_line, abandonAction_ramp hr, dropReports_line, abandonRamp_owned ho]
    exact ⟨rfl, rfl, rfl⟩
  case done =>
    show takeActionDone done s = _
    rw [takeActionDone_waits he hp ha ((completes_iff done a).mpr hd), advanceRun_at hp]
  case lost =>
    obtain ⟨w, p, he, hp, ha⟩ := (runningAction_iff s a).mp stands
    exact Bool.eq_false_iff.mpr fun h => hn w p ⟨he, hp, a, ha, (completes_iff done a).mp h⟩

end Sys2Proof.Machine

namespace Sys2Proof.Machine

/-! ## LEVEL_CMD -/

theorem modifyLevel_dequeue (l : Fin 16) (f : Level → Level) (s : State) :
    modifyLevel l f (dequeue s) = { dequeue s with
      react.levels := upd s.react.levels l (f s.react.levels[l]) } := by
  simp only [modifyLevel, dequeue_react]

theorem levelState_dequeue (s : State) (l : Fin 16) : levelState (dequeue s) l = levelState s l := by
  simp only [levelState, dequeue_react]

/-- R179, R197: an operation byte that is its row's own: the owner acts, and its status is the reply. -/
theorem takeRow_levelCommand {own : Nat} {tag k n : Byte} {act : List Byte → State → Answer} {s t : State}
    {st : Status} (h : takeable ⟨0x18, tag, [k, n]⟩ s = true) (hk : k.toNat = own) (ho : own < 5)
    (ha : act [k, n] (dequeue s) = ⟨t, st, []⟩) :
    takeRow 5 own ⟨0x18, tag, [k, n]⟩ (levelCommand act) s =
      putReply ⟨0x98, tag, replyPayload st []⟩ t := by
  have hb : byteAt [k, n] 0 = own := by rw [byteAt_zero, hk]
  rw [takeRow_selected _ _ (selectsRow_own hb)]
  refine takeRequest_answered h ?_
  rw [levelCommand, withLength_eq (n := 2) rfl, hb, if_pos ho, ha]

/-- R179: an operation that names a level above 15 is refused. -/
theorem onNamedLevel_range (act : Fin 16 → State → Answer) (k : Byte) {n : Byte} (hn : 15 < n.toNat)
    (s : State) : onNamedLevel act [k, n] s = ⟨s, .range, []⟩ := by
  rw [onNamedLevel, byteAt_succ, byteAt_zero, asFin_none hn]
  rfl

theorem onNamedLevel_named (act : Fin 16 → State → Answer) (k : Byte) {n : Byte} {l : Fin 16}
    (hn : n.toNat = l.val) (s : State) : onNamedLevel act [k, n] s = act l s := by
  rw [onNamedLevel, byteAt_succ, byteAt_zero, hn, asFin_val]

/-! ### The five operations -/

/-- R179, ENABLE. -/
theorem enableLevel_dequeue (l : Fin 16) (s : State) : enableLevel l (dequeue s) =
    if (s.react.levels[l]).defn.enable = true then dequeue s
    else settle (auction (publish (dequeue s) { dequeue s with
      react.levels := upd s.react.levels l { s.react.levels[l] with
        defn := { (s.react.levels[l]).defn with enable := true } } })) := by
  rw [enableLevel, modifyLevel_dequeue, dequeue_react]
  rfl

/-- R179, DISABLE: the level loses its run, and the executor is not concerned. -/
theorem disableLevel_idle {s : State} {l : Fin 16} (h : levelState s l = .armed ∨ levelState s l = .waiting) :
    disableLevel l s = modifyLevel l (fun x =>
      { x with defn.enable := false, runPos := none, runCause := none }) s := by
  rcases h with h | h <;> rw [disableLevel, h]

theorem disableLevel_disabled {s : State} {l : Fin 16}
    (h : levelState s l = .dormant ∨ levelState s l = .posted) : disableLevel l s = s := by
  rcases h with h | h <;> rw [disableLevel, h]

/-- R179, DISABLE of the level that holds the executor: what it leaves before the auction. -/
def runDisabled (l : Fin 16) (s : State) : State :=
  { modifyLevel l (fun x => { x with
      defn.enable := false, pending := false, cause := none, runPos := none, runCause := none })
    (abandonAction s) with react.executor := none }

theorem disableLevel_running {s : State} {l : Fin 16} (h : levelState s l = .running) :
    disableLevel l s = settle (auction (publish s (runDisabled l s))) := by
  rw [disableLevel, h]
  rfl

/-- R168: the line unit after the abandonment of the action that the level waits on. -/
theorem abandonAction_line (s : State) : (abandonAction s).line = s.line ∨
    (s.line.owner = .action ∧ (abandonAction s).line = (abandonRamp s).line) := by
  unfold abandonAction
  split
  · rw [dropReports_line]
    cases ho : s.line.owner with
    | action => exact .inr ⟨rfl, rfl⟩
    | line => exact .inl (by rw [abandonRamp, ho])
  · exact .inl rfl

theorem runDisabled_levels (l : Fin 16) (s : State) : (runDisabled l s).react.levels =
    upd s.react.levels l { s.react.levels[l] with
      defn := { (s.react.levels[l]).defn with enable := false }
      pending := false, cause := none, runPos := none, runCause := none } := by
  rw [← (abandonAction_react s).1]
  rfl

/-- R179, FIRE: the named level alone is offered the trigger. -/
theorem setPending_one (l : Fin 16) (cause : Cause) (s : State) : setPending (fun m => m == l) cause s =
    modifyLevel l (fun x => { x with pending := true, cause := some cause }) s := by
  have levels : (setPending (fun m => m == l) cause s).react.levels =
      (modifyLevel l (fun x => { x with pending := true, cause := some cause }) s).react.levels := by
    refine Vector.ext fun j hj => ?_
    have h := setPending_level (fun m => m == l) cause s ⟨j, hj⟩
    have g := modifyLevel_level l (fun x => { x with pending := true, cause := some cause }) s ⟨j, hj⟩
    simp only [beq_iff_eq] at h
    exact h.trans g.symm
  exact congrArg (fun v => { s with react.levels := v }) levels

theorem vacateForLock_stays {s : State} (h : ∀ m, s.react.executor = some m → m.val = 0) :
    vacateForLock s = s := by
  unfold vacateForLock
  split
  · rfl
  · next m held => exact if_pos (h m held)

theorem vacateForLock_suspends {s : State} {m : Fin 16} (held : s.react.executor = some m)
    (hm : m.val ≠ 0) : vacateForLock s = suspend s := by
  rw [vacateForLock, held]
  exact if_neg hm

theorem lockReactions_locked {s : State} (h : s.react.lock = true) : lockReactions s = s := if_pos h

theorem lockReactions_open {s : State} (h : s.react.lock = false) : lockReactions s =
    settle (auction (publish s { vacateForLock s with react.lock := true })) :=
  if_neg (Bool.eq_false_iff.mp h)

theorem unlockReactions_locked {s : State} (h : s.react.lock = true) : unlockReactions s =
    settle (auction (publish s { s with react.lock := false })) := if_pos h

theorem unlockReactions_open {s : State} (h : s.react.lock = false) : unlockReactions s = s :=
  if_neg (Bool.eq_false_iff.mp h)

section Taken

variable {tag n : Byte} {l : Fin 16} {s : State}

theorem exec_levelCmdEnable (h : takeable ⟨0x18, tag, [0, n]⟩ s = true) (hn : n.toNat = l.val) :
    exec (.levelCmdEnable tag [0, n]) s =
      .next (putReply ⟨0x98, tag, [0]⟩ (enableLevel l (dequeue s))) :=
  congrArg Host.Outcome.next
    (takeRow_levelCommand h rfl (by decide) (onNamedLevel_named enableAnswer 0 hn (dequeue s)))

theorem exec_levelCmdDisable (h : takeable ⟨0x18, tag, [1, n]⟩ s = true) (hn : n.toNat = l.val) :
    (l.val = 0 → exec (.levelCmdDisable tag [1, n]) s = .next (putReply ⟨0x98, tag, [11]⟩ (dequeue s))) ∧
    (l.val ≠ 0 → exec (.levelCmdDisable tag [1, n]) s =
      .next (putReply ⟨0x98, tag, [0]⟩ (disableLevel l (dequeue s)))) := by
  have named := onNamedLevel_named disableAnswer 1 hn (dequeue s)
  exact ⟨fun hl => congrArg Host.Outcome.next
      (takeRow_levelCommand (st := .range) h rfl (by decide) (named.trans (if_pos hl))),
    fun hl => congrArg Host.Outcome.next
      (takeRow_levelCommand (st := .ok) h rfl (by decide) (named.trans (if_neg hl)))⟩

theorem exec_levelCmdFire (h : takeable ⟨0x18, tag, [2, n]⟩ s = true) (hn : n.toNat = l.val) :
    exec (.levelCmdFire tag [2, n]) s =
      .next (putReply ⟨0x98, tag, [0]⟩ (fireLevel l (dequeue s))) :=
  congrArg Host.Outcome.next
    (takeRow_levelCommand (t := fireLevel l (dequeue s)) (st := .ok) h rfl (by decide)
      (onNamedLevel_named fireAnswer 2 hn (dequeue s)))

theorem exec_levelCmdLock (h : takeable ⟨0x18, tag, [3, n]⟩ s = true) :
    exec (.levelCmdLock tag [3, n]) s = .next (putReply ⟨0x98, tag, [0]⟩ (lockReactions (dequeue s))) :=
  congrArg Host.Outcome.next (takeRow_levelCommand (act := lockAnswer) h rfl (by decide) rfl)

theorem exec_levelCmdUnlock (h : takeable ⟨0x18, tag, [4, n]⟩ s = true) :
    exec (.levelCmdUnlock tag [4, n]) s =
      .next (putReply ⟨0x98, tag, [0]⟩ (unlockReactions (dequeue s))) :=
  congrArg Host.Outcome.next (takeRow_levelCommand (act := unlockAnswer) h rfl (by decide) rfl)

/-- R179: a level byte above 15 is refused by the three operations that name a level. -/
theorem exec_levelCmd_range (hn : 15 < n.toNat) :
    (takeable ⟨0x18, tag, [0, n]⟩ s = true →
      exec (.levelCmdEnable tag [0, n]) s = .next (putReply ⟨0x98, tag, [11]⟩ (dequeue s))) ∧
    (takeable ⟨0x18, tag, [1, n]⟩ s = true →
      exec (.levelCmdDisable tag [1, n]) s = .next (putReply ⟨0x98, tag, [11]⟩ (dequeue s))) ∧
    (takeable ⟨0x18, tag, [2, n]⟩ s = true →
      exec (.levelCmdFire tag [2, n]) s = .next (putReply ⟨0x98, tag, [11]⟩ (dequeue s))) := by
  have refused (act : Fin 16 → State → Answer) {k : Byte} {own : Nat} (hk : k.toNat = own) (ho : own < 5)
      (h : takeable ⟨0x18, tag, [k, n]⟩ s = true) :
      takeRow 5 own ⟨0x18, tag, [k, n]⟩ (levelCommand (onNamedLevel act)) s =
        putReply ⟨0x98, tag, [11]⟩ (dequeue s) :=
    takeRow_levelCommand (st := .range) h hk ho (onNamedLevel_range act k hn (dequeue s))
  exact ⟨fun h => congrArg Host.Outcome.next (refused enableAnswer rfl (by decide) h),
    fun h => congrArg Host.Outcome.next (refused disableAnswer rfl (by decide) h),
    fun h => congrArg Host.Outcome.next (refused fireAnswer rfl (by decide) h)⟩

end Taken

/-- Settles O37: the operation byte selects the row, the level byte its level, and each operation is judged by
the level's state, the executor or the lock. -/
theorem levelCommandsTaken : Obligations.LevelCommandsTaken := by
  unfold Obligations.LevelCommandsTaken
  intro tag n s d
  have react : d.react = s.react := dequeue_react s
  refine ⟨exec_levelCmd_range, fun l hn => ⟨fun h => ?enable, fun h => ?disable, fun h => ?fire⟩,
    fun h => ?lock, fun h => ?unlock⟩
  case enable => rw [exec_levelCmdEnable h hn, enableLevel_dequeue]
  case fire => rw [exec_levelCmdFire h hn, fireLevel, setPending_one, modifyLevel_dequeue]; rfl
  case disable =>
    obtain ⟨refused, taken⟩ := exec_levelCmdDisable h hn
    rw [← levelState_dequeue]
    refine ⟨refused, fun hl hs => ?idle, fun hl hs => ?disabled,
      fun hl hs => ⟨runDisabled l d, ?running, rfl, ?levels, ?line⟩⟩
    case idle => rw [taken hl, disableLevel_idle hs, modifyLevel_dequeue]
    case disabled => rw [taken hl, disableLevel_disabled hs]
    case running => rw [taken hl, disableLevel_running hs]
    case levels => rw [runDisabled_levels, react]
    case line =>
      rw [← dequeue_line s]
      exact abandonAction_line d
  case lock =>
    rw [exec_levelCmdLock h, ← react]
    refine ⟨fun hl => by rw [lockReactions_locked hl], fun hl zero => ?_, fun hl ⟨m, held, hm⟩ => ?_⟩
    · rw [lockReactions_open hl, vacateForLock_stays zero]
    · rw [lockReactions_open hl, vacateForLock_suspends held hm]
  case unlock =>
    rw [exec_levelCmdUnlock h, ← react]
    exact ⟨fun hl => by rw [unlockReactions_locked hl], fun hl => by rw [unlockReactions_open hl]⟩

end Sys2Proof.Machine

namespace Sys2Proof.Machine

/-! ## The fields of a level definition -/

theorem wordAt_skip {a : List Byte} {n : Nat} (h : a.length = n) (b : List Byte) (k : Nat) :
    wordAt (a ++ b) (n + k) = wordAt b k := congrArg leValue (fieldAt_skip h b k 2)

theorem enc16_length (v : Nat) : (enc16 v).length = 2 := leBytes_length 2 v

theorem wordAt_enc16 {v : Nat} (h : v < 65536) (b : List Byte) : wordAt (enc16 v ++ b) 0 = v := by
  rw [wordAt, fieldAt_whole (enc16_length v), enc16, leValue_leBytes, Nat.mod_eq_of_lt (by exact h)]

/-- R178: an action whose numbers and values fit their fields. -/
def Action.Fits : Action → Prop
  | .set x v => x < 65536 ∧ fits32 v = true
  | .copy x y => x < 65536 ∧ y < 65536
  | .ramp t r => 0 ≤ t ∧ t < 65536 ∧ 0 ≤ r ∧ r < 65536
  | _ => True

theorem parseAction_set {rest : List Byte} (h : 6 ≤ rest.length) : parseAction (0 :: rest) =
    some (some (.set (wordAt rest 0) (longAt rest 2)), rest.drop 6) := if_neg (not_lt.mpr h)

theorem parseAction_copy {rest : List Byte} (h : 4 ≤ rest.length) : parseAction (1 :: rest) =
    some (some (.copy (wordAt rest 0) (wordAt rest 2)), rest.drop 4) := if_neg (not_lt.mpr h)

theorem parseAction_ramp {rest : List Byte} (h : 4 ≤ rest.length) : parseAction (2 :: rest) =
    some (some (.ramp (wordAt rest 0) (wordAt rest 2)), rest.drop 4) := if_neg (not_lt.mpr h)

/-- Two numbers, one after the other, are read back. -/
theorem twoWords_fields {x y : Nat} (hx : x < 65536) (hy : y < 65536) (rest : List Byte) :
    let bs := enc16 x ++ (enc16 y ++ rest)
    4 ≤ bs.length ∧ wordAt bs 0 = x ∧ wordAt bs 2 = y ∧ bs.drop 4 = rest := by
  refine ⟨?_, wordAt_enc16 hx _, ?_, ?_⟩
  · simp only [List.length_append, enc16_length]
    omega
  · rw [wordAt_skip (k := 0) (enc16_length x), wordAt_enc16 hy]
  · rw [← List.append_assoc]
    exact List.drop_left' (by rw [List.length_append, enc16_length, enc16_length])

/-- A number and a signed value after it are read back. -/
theorem wordAndLong_fields {x : Nat} {v : Int} (hx : x < 65536) (hv : fits32 v = true) (rest : List Byte) :
    let bs := enc16 x ++ (enc32 v ++ rest)
    6 ≤ bs.length ∧ wordAt bs 0 = x ∧ longAt bs 2 = v ∧ bs.drop 6 = rest := by
  refine ⟨?_, wordAt_enc16 hx _, ?_, ?_⟩
  · simp only [List.length_append, enc16_length, enc32_length]
    omega
  · rw [longAt_skip (k := 0) (enc16_length x), longAt_enc32 hv]
  · rw [← List.append_assoc]
    exact List.drop_left' (by rw [List.length_append, enc16_length, enc32_length])

/-- R178, Table 11-2: an action that fits is read back from its bytes, with the bytes that follow. -/
theorem parseAction_encAction {a : Action} (h : a.Fits) (rest : List Byte) :
    parseAction (encAction a ++ rest) = some (some a, rest) := by
  cases a with
  | set x v =>
    obtain ⟨long, number, value, left⟩ := wordAndLong_fields h.1 h.2 rest
    have bytes : encAction (.set x v) ++ rest = 0 :: (enc16 x ++ (enc32 v ++ rest)) := by
      rw [encAction, List.append_assoc, List.append_assoc]
      rfl
    rw [bytes, parseAction_set long, number, value, left]
  | copy x y =>
    obtain ⟨long, first, second, left⟩ := twoWords_fields h.1 h.2 rest
    have bytes : encAction (.copy x y) ++ rest = 1 :: (enc16 x ++ (enc16 y ++ rest)) := by
      rw [encAction, List.append_assoc, List.append_assoc]
      rfl
    rw [bytes, parseAction_copy long, first, second, left]
  | ramp t r =>
    obtain ⟨t0, t1, r0, r1⟩ := h
    obtain ⟨long, first, second, left⟩ :=
      twoWords_fields (x := t.toNat) (y := r.toNat) (by omega) (by omega) rest
    have bytes : encAction (.ramp t r) ++ rest = 2 :: (enc16 t.toNat ++ (enc16 r.toNat ++ rest)) := by
      rw [encAction, List.append_assoc, List.append_assoc]
      rfl
    rw [bytes, parseAction_ramp long, first, second, left, Int.toNat_of_nonneg t0, Int.toNat_of_nonneg r0]
  | lift | stop | holdHeat | beacon | report | safe => rfl

theorem parseActions_encActions {actions : List Action} (h : ∀ a ∈ actions, a.Fits) :
    parseActions actions.length (actions.flatMap encAction) = some (actions.map some) := by
  induction actions with
  | nil => rfl
  | cons a as ih =>
    have tail := ih fun b hb => h b (List.mem_cons_of_mem a hb)
    rw [List.length_cons, List.flatMap_cons, parseActions, parseAction_encAction (h a List.mem_cons_self)]
    dsimp only
    rw [tail]
    rfl

/-- Table 11-2: a trigger is two bytes, from which it is read back. -/
theorem encTrigger_bytes (t : Trigger) :
    ∃ a b : Byte, encTrigger t = [a, b] ∧ parseTrigger a.toNat b.toNat = some t := by
  cases t with
  | noTrigger => exact ⟨0, 0, rfl, rfl⟩
  | event k => exact ⟨1, BitVec.ofNat 8 k.code, rfl, by cases k <;> rfl⟩
  | watch w =>
    refine ⟨2, BitVec.ofNat 8 w.val, rfl, ?_⟩
    rw [toNat_channelByte]
    exact congrArg (Option.map Trigger.watch) (asFin_val w)

/-- R178: the payload of LEVEL_WRITE, field by field. -/
def levelPayload (l : Fin 16) (f : LevelDef) : List Byte :=
  leBytes 1 l.val ++ encTrigger f.trigger ++ encFlag f.enable ++ encActions f.actions

theorem levelDefOf_fields (f : LevelDef) :
    levelDefOf (some f.trigger) (if f.enable = true then 1 else 0) (f.actions.map some) = some f := by
  have kinds : (f.actions.map some).all Option.isSome = true := by simp
  have actions : (f.actions.map some).filterMap id = f.actions := by
    rw [List.filterMap_map]
    exact List.filterMap_some
  unfold levelDefOf
  dsimp only
  rw [if_neg (by split <;> decide), if_pos kinds, actions]
  cases f with
  | mk trigger enable actions => cases enable <;> rfl

/-- R178, checks 1 to 4: the payload of a definition that fits reaches checks 5 to 7. -/
theorem levelWriteAnswer_fields {l : Fin 16} {f : LevelDef} (hlen : f.actions.length ≤ 4)
    (hfit : ∀ a ∈ f.actions, a.Fits) (s : State) :
    levelWriteAnswer (levelPayload l f) s = judgeLevel l f s := by
  obtain ⟨a, b, trigger, parsed⟩ := encTrigger_bytes f.trigger
  have bytes : levelPayload l f = BitVec.ofNat 8 l.val :: a :: b ::
      (if f.enable = true then 1 else 0) :: BitVec.ofNat 8 f.actions.length ::
      f.actions.flatMap encAction := by
    rw [levelPayload, trigger, encFlag_eq]
    rfl
  have count : (BitVec.ofNat 8 f.actions.length : Byte).toNat = f.actions.length := by
    rw [BitVec.toNat_ofNat]
    omega
  have flag : (if f.enable = true then 1 else 0 : Byte).toNat = if f.enable = true then 1 else 0 := by
    split <;> rfl
  have actions : levelActions (levelPayload l f) = some (f.actions.map some) := by
    have h4 : byteAt (levelPayload l f) 4 = f.actions.length := by
      rw [bytes, byteAt_succ, byteAt_succ, byteAt_succ, byteAt_succ, byteAt_zero, count]
    have whole : ¬((levelPayload l f).length < 5 ∨ 4 < f.actions.length) := by
      rw [bytes]
      simp only [List.length_cons]
      omega
    rw [levelActions, h4, if_neg whole, bytes]
    exact parseActions_encActions hfit
  unfold levelWriteAnswer
  rw [actions, bytes]
  simp only [byteAt_succ, byteAt_zero]
  rw [toNat_channelByte, asFin_val, parsed, flag, levelDefOf_fields]

/-! ## Checks 5 to 7 -/

theorem isSetting_iff (n : Nat) :
    isSetting n = true ↔ ∃ p, Point.ofNumber n = some p ∧ p.cls = .setting := by
  simp only [isSetting, beq_iff_eq, Option.map_eq_some_iff]

/-- R178, check 5: the action list, kind by kind. -/
theorem actionsAllowed_iff (l : Fin 16) (actions : List Action) :
    actions.all (actionAllowed l) = true ↔
      (∀ x v, .set x v ∈ actions → isSetting x = true) ∧
      (∀ x y, .copy x y ∈ actions → isSetting x = true ∧ Point.ofNumber y ≠ none) ∧
      (∀ t r, .ramp t r ∈ actions → (0 ≤ t ∧ t ≤ 2000) ∧ 1 ≤ r ∧ r ≤ 500) ∧
      (.safe ∈ actions → l.val = 0) := by
  rw [List.all_eq_true]
  constructor
  · intro h
    refine ⟨fun x v hm => h _ hm, fun x y hm => ?_, fun t r hm => ?_, fun hm => ?_⟩
    · simpa only [actionAllowed, Bool.and_eq_true, Option.isSome_iff_ne_none] using h _ hm
    · simpa only [actionAllowed, Bool.and_eq_true, decide_eq_true_eq, and_assoc] using h _ hm
    · simpa only [actionAllowed, beq_iff_eq] using h _ hm
  · rintro ⟨sets, copies, ramps, safes⟩ a hm
    cases a with
    | set x v => exact sets x v hm
    | copy x y =>
      simpa only [actionAllowed, Bool.and_eq_true, Option.isSome_iff_ne_none] using copies x y hm
    | ramp t r =>
      simpa only [actionAllowed, Bool.and_eq_true, decide_eq_true_eq, and_assoc] using ramps t r hm
    | safe => simpa only [actionAllowed, beq_iff_eq] using safes hm
    | lift | stop | holdHeat | beacon | report => rfl

/-- R178, check 6: level 0 keeps its enable flag and its actions. -/
theorem fixedParts_iff (l : Fin 16) (d : LevelDef) : fixedParts l d = true ↔
    (l.val = 0 → d.enable = true ∧ d.actions = [.safe, .report]) := by
  rw [fixedParts, Bool.or_eq_true, bne_iff_ne, Bool.and_eq_true, decide_eq_true_eq, imp_iff_not_or]

theorem levelAllowed_iff {l : Fin 16} {d : LevelDef} (h : d.actions.length ≤ 4) :
    levelAllowed l d = true ↔ d.actions.all (actionAllowed l) = true ∧ fixedParts l d = true := by
  rw [levelAllowed, Bool.and_eq_true, Bool.and_eq_true, and_assoc]
  exact and_iff_right (decide_eq_true h)

/-- Table 9-2: a level that has just been defined waits for its trigger, if it is enabled. -/
theorem levelState_defined {s : State} {l : Fin 16} {f : LevelDef}
    (h : s.react.levels[l] = Level.ofDef f) (free : s.react.executor ≠ some l) :
    levelState s l = if f.enable = true then .armed else .dormant := by
  rw [levelState, h]
  exact if_neg free

/-- Settles O36: the payload is read back field by field, and the definition judged by checks 5 to 7. -/
theorem levelDefined : Obligations.LevelDefined := by
  unfold Obligations.LevelDefined
  intro tag l f s hlen sets copies ramps payload ht d t allowed
  have fit : ∀ a ∈ f.actions, a.Fits := by
    intro a hm
    cases a with
    | set x v => exact sets x v hm
    | copy x y => exact copies x y hm
    | ramp u r => exact ramps u r hm
    | lift | stop | holdHeat | beacon | report | safe => trivial
  have judged : levelAllowed l f = true ↔ allowed := by
    rw [levelAllowed_iff hlen, actionsAllowed_iff, fixedParts_iff, and_assoc, and_assoc, and_assoc]
    simp only [isSetting_iff]
    refine and_congr_right fun _ => and_congr_right fun _ => and_congr_left fun _ =>
      forall₃_congr fun u r hm => ?_
    have fits := ramps u r hm
    omega
  have answered {u : State} {st : Status} (h : judgeLevel l f d = ⟨u, st, []⟩) :
      exec (.levelWrite tag payload) s = .next (putReply ⟨0x96, tag, replyPayload st []⟩ u) :=
    congrArg Host.Outcome.next
      (takeRequest_answered ht ((levelWriteAnswer_fields hlen fit d).trans h))
  have defined : defineLevel l f d = t := modifyLevel_dequeue l (fun _ => Level.ofDef f) s
  rw [← judged, ← levelState_dequeue]
  refine ⟨fun ok runs waits => ⟨?taken, ?state⟩, fun ok held => ?busy, fun bad => ?refused⟩
  case taken =>
    have idle := not_or.mpr ⟨runs, waits⟩
    exact answered (u := t) (st := .ok) (by rw [judgeLevel, ok, if_neg nofun, if_neg idle, defined])
  case state =>
    refine levelState_defined ?_ fun held => runs ((levelState_running_iff d l).mpr held)
    simp only [t, Fin.getElem_fin, upd_getElem_same, Level.ofDef]
  case busy => exact answered (st := .busy) (by rw [judgeLevel, ok, if_neg nofun, if_pos held]; rfl)
  case refused => exact answered (st := .range) (by rw [judgeLevel, if_pos (Bool.eq_false_iff.mpr bad)]; rfl)

end Sys2Proof.Machine

namespace Sys2Proof.Machine

/-! ## Watches -/

/-- Table 9-1. -/
theorem WatchDef.holds_iff (d : WatchDef) (v : Int) :
    (d.cond = .off → d.holds v = false) ∧
    (d.cond = .above → (d.holds v = true ↔ d.hi < v)) ∧
    (d.cond = .below → (d.holds v = true ↔ v < d.lo)) ∧
    (d.cond = .outside → (d.holds v = true ↔ v < d.lo ∨ d.hi < v)) ∧
    (d.cond = .inside → (d.holds v = true ↔ d.lo ≤ v ∧ v ≤ d.hi)) := by
  refine ⟨fun h => ?_, fun h => ?_, fun h => ?_, fun h => ?_, fun h => ?_⟩ <;>
    simp only [holds, h, decide_eq_true_eq, Bool.or_eq_true, Bool.and_eq_true]

/-- R161: a watch whose condition does not hold is CLEAR. -/
theorem Watch.judged_clear {x : Watch} {v : Int} (h : x.defn.holds v = false) : x.judged v = .clear := by
  unfold judged
  rw [h]
  cases x.state <;> rfl

/-- R161: a watch whose condition holds leaves CLEAR, by its persistence. -/
theorem Watch.judged_holds {x : Watch} {v : Int} (h : x.defn.holds v = true) : x.judged v =
    if x.state = .clear then (if 0 < x.defn.persist then .timing else .tripped) else x.state := by
  unfold judged
  rw [h]
  cases x.state <;> rfl

/-- R161: an entry into TRIPPED is offered to the levels, and no other judgement is. -/
theorem judgeWatch_eq (w : Fin 16) (v : Int) (s : State) :
    let x := s.react.watches[w]
    let s1 : State := { s with react.watches := upd s.react.watches w { x with state := x.judged v } }
    judgeWatch w v s = if x.judged v = .tripped ∧ x.state ≠ .tripped then deferOffer (.trip w) s1 else s1 :=
  rfl

theorem judgeWatch_quiet {w : Fin 16} {v : Int} {s : State} {st : WatchState}
    (h : (s.react.watches[w]).judged v = st) (quiet : st = .tripped → (s.react.watches[w]).state = .tripped) :
    judgeWatch w v s = { s with
      react.watches := upd s.react.watches w { s.react.watches[w] with state := st } } := by
  rw [judgeWatch_eq, h]
  exact if_neg fun trips => trips.2 (quiet trips.1)

theorem judgeWatch_trips {w : Fin 16} {v : Int} {s : State}
    (h : (s.react.watches[w]).judged v = .tripped) (enters : (s.react.watches[w]).state ≠ .tripped) :
    judgeWatch w v s = deferOffer (.trip w) { s with
      react.watches := upd s.react.watches w { s.react.watches[w] with state := .tripped } } := by
  rw [judgeWatch_eq, h]
  exact if_pos ⟨rfl, enters⟩

/-- R161: the persistence timing runs in TIMING alone. -/
theorem exec_watchPersistenceExpiry {s : State} (hr : s.runs = true) (w : Fin 16) :
    exec (.watchPersistenceExpiry w) s = .next (persistenceEnds w s) :=
  congrArg Host.Outcome.next (whenRuns_running hr _)

/-! ### WATCH_WRITE -/

/-- R162: the fields of a definition as the payload carries them. -/
def watchPayload (w : Fin 16) (source : Nat) (cond : WatchCond) (lo hi persist : BitVec 32) : List Byte :=
  leBytes 1 w.val ++ leBytes 2 source ++ leBytes 1 cond.code ++ leBytes 4 lo.toNat ++
    leBytes 4 hi.toNat ++ leBytes 4 persist.toNat

/-- R162: the definition that they spell. -/
def watchFields (source : Nat) (cond : WatchCond) (lo hi persist : BitVec 32) : WatchDef where
  source := source
  cond := cond
  lo := lo.toInt
  hi := hi.toInt
  persist := persist.toInt

theorem WatchCond.ofCode_code (c : WatchCond) : WatchCond.ofCode c.code = some c := by cases c <;> rfl

theorem WatchCond.toNat_code (c : WatchCond) : (BitVec.ofNat 8 c.code : Byte).toNat = c.code := by
  cases c <;> rfl

theorem longAt_leBytes (v : BitVec 32) (b : List Byte) : longAt (leBytes 4 v.toNat ++ b) 0 = v.toInt := by
  rw [longAt, fieldAt_whole (leBytes_length 4 _), dec32_leBytes]

section Payload

variable (w : Fin 16) {source : Nat} (cond : WatchCond) (lo hi persist : BitVec 32)

theorem watchPayload_length : (watchPayload w source cond lo hi persist).length = 16 := by
  simp only [watchPayload, List.length_append, leBytes_length]

/-- R162, checks 2 and 3: the watch and the definition are read back from the payload. -/
theorem watchPayload_fields (h : source < 65536) :
    byteAt (watchPayload w source cond lo hi persist) 0 = w.val ∧
      parseWatch (watchPayload w source cond lo hi persist) =
        some (watchFields source cond lo hi persist) := by
  have bytes : watchPayload w source cond lo hi persist = BitVec.ofNat 8 w.val :: (enc16 source ++
      (BitVec.ofNat 8 cond.code :: (leBytes 4 lo.toNat ++ (leBytes 4 hi.toNat ++
        (leBytes 4 persist.toNat ++ []))))) := by
    simp only [watchPayload, List.append_assoc, List.append_nil]
    rfl
  have code : byteAt (watchPayload w source cond lo hi persist) 3 = cond.code := by
    rw [bytes, byteAt_succ, byteAt, fieldAt_skip (k := 0) (enc16_length source)]
    exact (byteAt_zero _ _).trans cond.toNat_code
  have number : wordAt (watchPayload w source cond lo hi persist) 1 = source := by
    rw [bytes, wordAt_succ, wordAt_enc16 h]
  have past (k : Nat) (b : List Byte) :
      longAt (BitVec.ofNat 8 w.val :: (enc16 source ++ (BitVec.ofNat 8 cond.code :: b))) (4 + k) =
        longAt b k := by
    rw [show 4 + k = 2 + (k + 1) + 1 by omega, longAt_succ, longAt_skip (enc16_length source), longAt_succ]
  refine ⟨by rw [bytes, byteAt_zero, toNat_channelByte], ?_⟩
  rw [parseWatch, code, cond.ofCode_code, number, bytes, past 0, past 4, past 8, longAt_leBytes,
    longAt_skip (k := 0) (leBytes_length 4 _), longAt_leBytes,
    longAt_skip (n := 4) (k := 4) (leBytes_length 4 _), longAt_skip (k := 0) (leBytes_length 4 _),
    longAt_leBytes]
  rfl

/-- R162: a definition that is read back is taken, or refused by checks 4 to 6. -/
theorem watchWriteAnswer_fields (h : source < 65536) (s : State) :
    watchWriteAnswer (watchPayload w source cond lo hi persist) s =
      if watchAllowed (watchFields source cond lo hi persist) = true then
        ⟨settle (defineWatch w (watchFields source cond lo hi persist) s), .ok, []⟩
      else refuse .range s := by
  obtain ⟨number, fields⟩ := watchPayload_fields w cond lo hi persist h
  rw [watchWriteAnswer, withLength_eq (watchPayload_length w cond lo hi persist), number, asFin_val, fields]

end Payload

theorem boundsAllowed_iff (c : WatchCond) (lo hi : Int) :
    boundsAllowed c lo hi = true ↔ (c = .outside ∨ c = .inside → lo ≤ hi) := by
  cases c <;> simp [boundsAllowed]

/-- R162, checks 4 to 6. -/
theorem watchAllowed_iff (d : WatchDef) : watchAllowed d = true ↔ Point.ofNumber d.source ≠ none ∧
    (d.cond = .outside ∨ d.cond = .inside → d.lo ≤ d.hi) ∧ 0 ≤ d.persist ∧ d.persist ≤ 60000 := by
  simp only [watchAllowed, Bool.and_eq_true, decide_eq_true_eq, boundsAllowed_iff,
    Option.isSome_iff_ne_none, and_assoc]

/-- R162: the new definition stands CLEAR, and judges the present value of its source. -/
theorem defineWatch_dequeue {d : WatchDef} {p : Point} (h : Point.ofNumber d.source = some p) (w : Fin 16)
    (s : State) : defineWatch w d (dequeue s) = judgeWatch w (readPoint s p) { dequeue s with
      react.watches := upd s.react.watches w { defn := d, state := .clear } } := by
  have value : watchedValue (dequeue s) d = readPoint s p := by
    rw [watchedValue, h]
    exact readPoint_dequeue s p
  have defined : modifyWatch w (fun _ => Watch.ofDef d) (dequeue s) = { dequeue s with
      react.watches := upd s.react.watches w { defn := d, state := .clear } } := by
    simp only [modifyWatch, dequeue_react, Watch.ofDef]
  rw [defineWatch, value, defined]

theorem triggeredByWatch_iff (s : State) (w l : Fin 16) :
    triggeredByWatch s w l = true ↔ (s.react.levels[l]).defn.trigger = .watch w := by
  rw [triggeredByWatch, beq_iff_eq]

/-- Settles O35: a judgement by the state of the watch and its condition, the expiry by the state, the trip as
the offer with WATCH_TRIP after it, and WATCH_WRITE by the fields read back from its payload. -/
theorem watchesDefinedAndTripped : Obligations.WatchesDefinedAndTripped := by
  unfold Obligations.WatchesDefinedAndTripped
  refine ⟨⟨WatchDef.holds_iff, fun w v s => ⟨fun off => ?clear, fun on => ⟨fun st hp => ?times,
    fun st hp => ?trips, fun st => ?timing, fun st => ?tripped⟩⟩,
    fun w s hr => ⟨fun st => ?ends, fun st => ?still⟩, fun w s => ⟨rfl, triggeredByWatch_iff s w⟩⟩, ?write⟩
  case clear => exact judgeWatch_quiet (Watch.judged_clear off) nofun
  case times => exact judgeWatch_quiet (by rw [Watch.judged_holds on, if_pos st, if_pos hp]) nofun
  case trips =>
    refine judgeWatch_trips (by rw [Watch.judged_holds on, if_pos st, if_neg (not_lt.mpr hp)]) ?_
    rw [st]
    nofun
  case timing => exact judgeWatch_quiet (by rw [Watch.judged_holds on, st, if_neg nofun]) nofun
  case tripped => exact judgeWatch_quiet (by rw [Watch.judged_holds on, st, if_neg nofun]) fun _ => st
  case ends => rw [exec_watchPersistenceExpiry hr]; exact congrArg _ (if_pos st)
  case still => rw [exec_watchPersistenceExpiry hr]; exact congrArg _ (if_neg st)
  case write =>
    intro tag w source cond lo hi persist s hsource payload ht d allowed
    have judged : watchAllowed (watchFields source cond lo hi persist) = true ↔ allowed := watchAllowed_iff _
    have answered {u : State} {st : Status} (h : watchWriteAnswer payload d = ⟨u, st, []⟩) :
        exec (.watchWrite tag payload) s = .next (putReply ⟨0x94, tag, replyPayload st []⟩ u) :=
      congrArg Host.Outcome.next (takeRequest_answered ht h)
    have answer := watchWriteAnswer_fields w cond lo hi persist hsource d
    refine ⟨fun p hp ok => ?_, fun bad => ?_⟩
    · rw [if_pos (judged.mpr ok), defineWatch_dequeue (p := p) hp] at answer
      exact answered answer
    · rw [if_neg (mt judged.mp bad)] at answer
      exact answered answer

end Sys2Proof.Machine

namespace Sys2Proof.Machine

/-! ## The fault record keeps its first fault -/

/-- R189: the record r with no more than kinds added to it. -/
structure FaultRecord.Extends (r q : FaultRecord) : Prop where
  first : q.first = r.first
  locus : q.locus = r.locus
  mode : q.mode = r.mode
  position : q.position = r.position
  kinds : r.kinds &&& q.kinds = r.kinds

theorem FaultRecord.Extends.refl (r : FaultRecord) : r.Extends r :=
  ⟨rfl, rfl, rfl, rfl, BitVec.and_self⟩

theorem FaultRecord.isEmpty_iff (r : FaultRecord) : r.isEmpty = true ↔ r.kinds = 0 := beq_iff_eq

/-- R189: a record that holds a kind only gains the kind of a later fault. -/
theorem FaultRecord.capture_held {r : FaultRecord} (h : r.kinds ≠ 0) (k : EventKind) (d : Nat)
    (m : LineMode) (p : Int) : r.capture k d m p = { r with kinds := r.kinds ||| k.bit } :=
  if_neg fun he => h (r.isEmpty_iff.mp he)

theorem FaultRecord.capture_empty {r : FaultRecord} (h : r.kinds = 0) (k : EventKind) (d : Nat)
    (m : LineMode) (p : Int) : r.capture k d m p =
      { kinds := k.bit, first := some k, locus := some (locusOf k d), mode := some m,
        position := some p } :=
  if_pos (r.isEmpty_iff.mpr h)

/-- A record that extends one that holds a kind holds that kind too. -/
theorem FaultRecord.Extends.held {r q : FaultRecord} (h : r.Extends q) (hr : r.kinds ≠ 0) :
    q.kinds ≠ 0 := by
  intro hq
  have hk := h.kinds
  rw [hq] at hk
  exact hr (hk.symm.trans BitVec.and_zero)

theorem FaultRecord.Extends.capture {r q : FaultRecord} (h : r.Extends q) (hr : r.kinds ≠ 0)
    (k : EventKind) (d : Nat) (m : LineMode) (p : Int) : r.Extends (q.capture k d m p) := by
  rw [FaultRecord.capture_held (h.held hr)]
  refine ⟨h.first, h.locus, h.mode, h.position, ?_⟩
  show r.kinds &&& (q.kinds ||| k.bit) = r.kinds
  ext i hi
  have bit : (r.kinds &&& q.kinds)[i] = r.kinds[i] := by rw [h.kinds]
  rw [BitVec.getElem_and] at bit
  rw [BitVec.getElem_and, BitVec.getElem_or, Bool.and_or_distrib_left, bit]
  cases r.kinds[i] <;> rfl

/-- The fault record that stands extends r. -/
def FaultKept (r : FaultRecord) (s : State) : Prop := r.Extends s.events.fault

theorem record_faultKept {r : FaultRecord} (hr : r.kinds ≠ 0) (k : EventKind) (d : Nat) {s : State}
    (h : FaultKept r s) : FaultKept r (record k d s) := by
  unfold FaultKept
  rw [record_fault]
  split
  · exact h.capture hr ..
  · exact h

/-- R191: no owner of a request but FAULT_CLEAR takes anything out of a record that holds a kind. -/
theorem faultKept_kept {r : FaultRecord} (hr : r.kinds ≠ 0) {c : Instr} (hc : isFaultClear c = false) :
    HoldingsKept (FaultKept r) c where
  same s t h g := by rwa [FaultKept, g.fault]
  raise k d _ h := record_faultKept hr k d h
  offer p s h := by rwa [FaultKept, offerReport_fault]
  flags k s h := by unfold clearFlags; dsimp only; split <;> exact h
  faultClear _ _ hf := absurd (hc.symm.trans hf) Bool.false_ne_true
  restarting _ h := h
  admitEntries _ _ _ s h := by unfold offerHistory; split <;> exact h
  clearRings _ _ h := h

theorem dequeue_fault (s : State) : (dequeue s).events.fault = s.events.fault := by
  unfold dequeue
  split
  · exact (restartSilence_holds s).fault
  · rfl

/-- R189, R192, R205: nor does the link, or a start with the power up. -/
theorem faultKept_stepKept {r : FaultRecord} (hr : r.kinds ≠ 0) {c : Instr}
    (hc : isFaultClear c = false) (hl : losesFaultRecord c = false) : StepKept (FaultKept r) c where
  toOwnerKept := (faultKept_kept hr hc).ownerKept
  receiver _ _ h := h
  buffered _ _ h _ := h
  silence _ _ h := h
  dequeued s h := by rwa [FaultKept, dequeue_fault]
  reply f s h := by rwa [FaultKept, putReply, transmitNext_fault]
  sent s h := by rwa [FaultKept, transmitNext_fault]
  blank _ _ q _ s h _ hq := by
    rcases hq with rfl | ⟨-, lost⟩
    · exact h
    · exact absurd (hl.symm.trans lost) Bool.false_ne_true
  load s h _ _ _ := by rwa [FaultKept, (loadStore_holds s).fault]

/-- Settles O43: the record extends the one before the command, by the operations that raise, clear and start. -/
theorem faultRecordKeepsFirst : Obligations.FaultRecordKeepsFirst := by
  unfold Obligations.FaultRecordKeepsFirst
  intro c s t e held hc hl hf
  obtain ⟨u, hu, kept⟩ := (faultKept_stepKept held hc hl).exec s (FaultRecord.Extends.refl _)
    fun f hm => (faultKept_kept held (hf f hm)).ownerKept
  rw [hu] at e
  cases e
  exact ⟨kept.first, kept.locus, kept.mode, kept.position, kept.kinds⟩

end Sys2Proof.Machine

namespace Sys2Proof.Machine

/-! ## Offers taken until none waits -/

theorem takeOffers_none {s : State} (h : s.react.deferred = []) (n : Nat) : takeOffers n s = s := by
  cases n with
  | zero => rfl
  | succ n => rw [takeOffers, h]

theorem takeOffers_cons {s : State} {d : Deferred} {rest : List Deferred}
    (h : s.react.deferred = d :: rest) (n : Nat) :
    takeOffers (n + 1) s = takeOffers n (takeOffer d { s with react.deferred := rest }) := by
  rw [takeOffers, h]

theorem takeOffers_add (m n : Nat) : ∀ s, takeOffers (m + n) s = takeOffers n (takeOffers m s) := by
  induction m with
  | zero => exact fun s => by rw [Nat.zero_add]; rfl
  | succ m ih =>
    intro s
    cases h : s.react.deferred with
    | nil => simp only [takeOffers_none h]
    | cons d rest => rw [Nat.add_right_comm, takeOffers_cons h, takeOffers_cons h, ih]

/-- Once no offer waits, taking more changes nothing. -/
theorem takeOffers_of_le {s : State} {m n : Nat} (h : (takeOffers m s).react.deferred = [])
    (hmn : m ≤ n) : takeOffers n s = takeOffers m s := by
  obtain ⟨k, rfl⟩ := Nat.exists_eq_add_of_le hmn
  rw [takeOffers_add, takeOffers_none h]

/-- R182: where two numbers of offers both leave none waiting, they lead to one state. -/
theorem takeOffers_unique {s : State} {m n : Nat} (hm : (takeOffers m s).react.deferred = [])
    (hn : (takeOffers n s).react.deferred = []) : takeOffers m s = takeOffers n s := by
  rcases Nat.le_total m n with h | h
  · exact (takeOffers_of_le hm h).symm
  · exact takeOffers_of_le hn h

/-- A cascade that comes back to a state of its own does so again and again. -/
theorem takeOffers_cycle {s : State} {k : Nat} (h : takeOffers k s = s) (j : Nat) :
    takeOffers (k * j) s = s := by
  induction j with
  | zero => rfl
  | succ j ih => rw [Nat.mul_succ, takeOffers_add, ih, h]

/-- A cascade that ends comes back to no state of its own in which an offer waits. -/
theorem takeOffers_ne_self {s : State} {n k : Nat} (ends : (takeOffers n s).react.deferred = [])
    (hk : 0 < k) (back : takeOffers k s = s) : s.react.deferred = [] := by
  have same : takeOffers (k * n) s = takeOffers n s := takeOffers_of_le ends (Nat.le_mul_of_pos_left n hk)
  rwa [← same, takeOffers_cycle back] at ends

/-- The watch for the state `seen` stops there, or takes every offer that it may. -/
theorem takeOffersUntil_eq_or (seen : State) (n : Nat) : ∀ s,
    takeOffersUntil seen n s = takeOffers n s ∨
      ∃ k, 0 < k ∧ takeOffers k s = seen := by
  induction n with
  | zero => exact fun s => .inl rfl
  | succ n ih =>
    intro s
    cases h : s.react.deferred with
    | nil => exact .inl (by rw [takeOffersUntil, takeOffers, h])
    | cons d rest =>
      by_cases back : takeOffer d { s with react.deferred := rest } = seen
      · exact .inr ⟨1, Nat.one_pos, (takeOffers_cons h 0).trans back⟩
      · rw [takeOffersUntil, h, takeOffers_cons h]
        dsimp only
        rw [if_neg back]
        refine (ih _).imp_right fun ⟨k, hk, hs⟩ => ⟨k + 1, Nat.succ_pos k, ?_⟩
        rw [takeOffers_cons h, hs]

/-- In a cascade that ends the watch for its own start never stops it early. -/
theorem takeOffersUntil_self {s : State} {m : Nat} (ends : (takeOffers m s).react.deferred = [])
    (n : Nat) : takeOffersUntil s n s = takeOffers n s := by
  rcases takeOffersUntil_eq_or s n s with h | ⟨k, hk, back⟩
  · exact h
  · have idle := takeOffers_ne_self ends hk back
    rw [takeOffers_none idle]
    cases n with
    | zero => rfl
    | succ n => rw [takeOffersUntil, idle]

/-- Log 10: r rounds, the first of n offers and each twice as long as the one before, take a cascade of as many
offers to its end. -/
theorem takeCascade_eq {n : Nat} (hn : 0 < n) : ∀ {r : Nat} {m : Nat} {s : State},
    m ≤ n * (2 ^ r - 1) → (takeOffers m s).react.deferred = [] →
    takeCascade r n s = takeOffers m s := by
  intro r
  induction r generalizing n with
  | zero =>
    intro m s hm _
    obtain rfl : m = 0 := by simpa using hm
    rfl
  | succ r ih =>
    intro m s hm ends
    rw [takeCascade, takeOffersUntil_self ends]
    split
    · next stop =>
      refine takeOffers_unique (stop.elim id fun back => ?_) ends
      rw [back]
      exact takeOffers_ne_self ends hn back
    · next more =>
      have long : n ≤ m := by
        by_contra short
        exact more (.inl (by rwa [takeOffers_of_le ends (by omega)]))
      obtain ⟨k, rfl⟩ := Nat.exists_eq_add_of_le long
      rw [takeOffers_add] at ends ⊢
      refine ih (by omega) ?_ ends
      have pow : 2 ^ (r + 1) - 1 = 2 * (2 ^ r - 1) + 1 := by
        have := Nat.one_le_two_pow (n := r)
        omega
      rw [pow] at hm
      linarith

/-- R182, log 10: a cascade that ends within 2^64 offers is taken to its end. -/
theorem settle_eq_takeOffers {n : Nat} {s : State} (hn : n ≤ 2 ^ 64)
    (ends : (takeOffers n s).react.deferred = []) : settle s = takeOffers n s := by
  unfold settle
  dsimp only
  split
  · next e => exact takeOffers_unique e ends
  · next d rest e =>
    have long : Config.offersAtOnce ≤ n := by
      by_contra short
      rw [takeOffers_of_le ends (by omega), ends] at e
      nomatch e
    obtain ⟨k, rfl⟩ := Nat.exists_eq_add_of_le long
    rw [takeOffers_add] at ends ⊢
    refine takeCascade_eq (by decide) ?_ ends
    unfold Config.offersAtOnce Config.cascadeRounds at *
    omega

end Sys2Proof.Machine

namespace Sys2Proof.Machine

/-! ## An occurrence is raised -/

/-- R183: the kinds that are faults. -/
theorem isFault_iff (k : EventKind) (d : Nat) : isFault k d = true ↔
    k = .estop ∨ k = .guard ∨ k = .linkSilent ∨ k = .overheat ∨ k = .webLoss ∨ k = .nipFault ∨
      k = .scorch ∨ (k = .sensorFault ∧ d ≤ 9) := by
  cases k <;> simp [isFault]

/-- R182 steps 1 and 2: what raising an occurrence notes in the event set and the fault record. -/
def noted (k : EventKind) (d : Nat) (s : State) : State :=
  { s with
    events.set := s.events.set ||| k.bit
    events.fault := if isFault k d then s.events.fault.capture k d s.line.mode s.line.position
      else s.events.fault }

theorem record_eq_noted (k : EventKind) (d : Nat) (s : State) :
    record k d s = deferOffer (.occurrence k d) (reportEvent k d (noted k d s)) := by
  have e : captureFault k d (setFlag k s) = noted k d s := by
    unfold captureFault noted
    split <;> rfl
  rw [record, e]

/-- R182 step 3: under the mask, and for REPORTS_DROPPED, no report is offered. -/
theorem reportEvent_masked {k : EventKind} {d : Nat} {s : State}
    (h : hasKind s.events.mask k = false ∨ k = .reportsDropped) : reportEvent k d s = s := by
  refine if_neg fun ⟨hk, hm⟩ => ?_
  rcases h with h | h
  · exact Bool.false_ne_true (h.symm.trans hm)
  · exact hk h

theorem reportEvent_offers {k : EventKind} (d : Nat) {s : State} (hk : k ≠ .reportsDropped)
    (hm : hasKind s.events.mask k = true) :
    reportEvent k d s = offerReport (.event k d s.line.position) s := if_pos ⟨hk, hm⟩

theorem transmitNext_busy {s : State} (h : s.link.sending ≠ none) : transmitNext s = s := by
  obtain ⟨f, hf⟩ := Option.ne_none_iff_exists'.mp h
  rw [transmitNext, hf]

theorem payNotice_none {s : State} (h : s.events.owed = false) : payNotice s = s :=
  if_neg (by rw [h]; decide)

theorem payNotice_owed {s : State} (h : s.events.owed = true) : payNotice s = { s with
    events.reports := s.events.reports ++ [.event .reportsDropped s.events.discarded s.line.position]
    events.discarded := 0
    events.owed := false } := if_pos h

/-- R187: a report joins a queue with room behind those that wait. -/
theorem offerReport_queued {r : Report} {s : State} (room : s.events.reports.length < 32)
    (busy : s.link.sending ≠ none) :
    offerReport r s = { s with events.reports := s.events.reports ++ [r] } :=
  (if_pos room).trans (transmitNext_busy busy)

/-- R199: an idle transmitter sends a report at once. -/
theorem offerReport_sent {r : Report} {s : State} (empty : s.events.reports = [])
    (idle : s.link.sending = none) (slot : s.link.slot = none) (owed : s.events.owed = false) :
    offerReport r s = { s with link.sending := some r.frame, events.reports := [] } := by
  have room : s.events.reports.length < Config.reportCapacity := by rw [empty]; decide
  rw [offerReport, if_pos room, empty, transmitNext]
  dsimp only
  rw [idle]
  dsimp only
  rw [slot]
  exact payNotice_none owed

/-- R188: a report offered to a full queue is discarded. -/
theorem offerReport_full {r : Report} {s : State} (full : 32 ≤ s.events.reports.length) :
    offerReport r s = { s with
      events.discarded := min 65535 (s.events.discarded + 1)
      events.owed := s.events.owed || hasKind s.events.mask .reportsDropped
      events.set := s.events.set ||| EventKind.bit .reportsDropped
      react.deferred := s.react.deferred ++
        [.occurrence .reportsDropped (min 65535 (s.events.discarded + 1))] } := by
  refine (if_neg (Nat.not_lt.mpr full)).trans ?_
  unfold discardReport
  dsimp only
  cases hasKind s.events.mask .reportsDropped with
  | false => rw [Bool.or_false]; rfl
  | true => rw [Bool.or_true]; rfl

/-- R182, R188: an occurrence of which no report is offered leaves its flag, its fault and its offer. -/
theorem record_masked {k : EventKind} (d : Nat) {s : State}
    (h : hasKind s.events.mask k = false ∨ k = .reportsDropped) :
    record k d s = deferOffer (.occurrence k d) (noted k d s) := by
  rw [record_eq_noted, reportEvent_masked (s := noted k d s) h]

section
variable {k : EventKind} (d : Nat) {s : State} (hk : k ≠ .reportsDropped)
  (hm : hasKind s.events.mask k = true)
include hk hm

theorem record_offered_report : record k d s =
    deferOffer (.occurrence k d) (offerReport (.event k d s.line.position) (noted k d s)) := by
  rw [record_eq_noted, reportEvent_offers (s := noted k d s) d hk hm]
  rfl

theorem record_queued (room : s.events.reports.length < 32) (busy : s.link.sending ≠ none) :
    record k d s = deferOffer (.occurrence k d) { noted k d s with
      events.reports := s.events.reports ++ [.event k d s.line.position] } := by
  rw [record_offered_report d hk hm, offerReport_queued (s := noted k d s) room busy]
  rfl

theorem record_sent (empty : s.events.reports = []) (idle : s.link.sending = none)
    (slot : s.link.slot = none) (owed : s.events.owed = false) :
    record k d s = deferOffer (.occurrence k d) { noted k d s with
      link.sending := some (Report.event k d s.line.position).frame
      events.reports := [] } := by
  rw [record_offered_report d hk hm, offerReport_sent (s := noted k d s) empty idle slot owed]

theorem record_full (full : 32 ≤ s.events.reports.length) :
    record k d s = deferOffer (.occurrence k d) { noted k d s with
      events.discarded := min 65535 (s.events.discarded + 1)
      events.owed := s.events.owed || hasKind s.events.mask .reportsDropped
      events.set := (noted k d s).events.set ||| EventKind.bit .reportsDropped
      react.deferred := s.react.deferred ++
        [.occurrence .reportsDropped (min 65535 (s.events.discarded + 1))] } := by
  rw [record_offered_report d hk hm, offerReport_full (s := noted k d s) full]
  rfl

end

/-- Settles O41: an occurrence by what becomes of its report, the report queue by its room, and the offers by
how many lead to none. -/
theorem occurrencesTaken : Obligations.OccurrencesTaken := by
  unfold Obligations.OccurrencesTaken
  refine ⟨fun k d s => ?raised, fun r s => ?reported, fun n s => ?taken⟩
  case raised =>
    intro t fault
    have faulty : isFault k d = true ↔ fault := isFault_iff k d
    obtain ⟨line, meas, bands, engine, loops, user, -, -, -, -, -, flag⟩ := record_units k d s
    have frame := record_frame k d s
    refine ⟨flag, fun j h => record_flags k d h, fun h => ?none, fun h empty => ?first, fun h held => ?later,
      fun h => ?masked, fun hk hm room busy => ?queued, fun hk hm empty idle slot owed => ?sent,
      fun hk hm full => ?full, line, meas, loops, bands, frame.profiles, engine, frame.nvm, frame.pins, user,
      frame.pending⟩
    case none => exact (record_fault k d s).trans (if_neg (mt faulty.mp h))
    case first =>
      rw [record_fault, if_pos (faulty.mpr h), FaultRecord.capture_empty empty]
    case later =>
      rw [record_fault, if_pos (faulty.mpr h), FaultRecord.capture_held held]
    case masked =>
      rw [show t = _ from record_masked d h]
      exact ⟨rfl, rfl, rfl⟩
    case queued =>
      rw [show t = _ from record_queued d hk hm room busy]
      exact ⟨rfl, rfl, rfl⟩
    case sent =>
      rw [show t = _ from record_sent d hk hm empty idle slot owed]
      exact ⟨rfl, rfl⟩
    case full =>
      rw [show t = _ from record_full d hk hm full]
      exact ⟨rfl, rfl, rfl, Bool.or_eq_true_iff .., hasKind_or_bit .., List.append_assoc ..⟩
  case reported => exact ⟨offerReport_queued, offerReport_full, payNotice_none, payNotice_owed⟩
  case taken =>
    exact ⟨fun h => takeOffers_none h n, fun d rest h => takeOffers_cons h n, settle_eq_takeOffers⟩

end Sys2Proof.Machine

namespace Sys2Proof.Machine

/-! ## The queue of the commands that wait -/

theorem settingWrite_pending (p : Point) (v : Int) (s : State) :
    (settingWrite p v s).state.pending = s.pending := by
  by_cases hc : p.cls = .setting
  · exact (settingWrite_frame p v s hc).pending
  · cases p
    case countsPerMm =>
      simp only [settingWrite, writePlain, storePlain]
      split <;> rfl
    all_goals first | rfl | exact absurd rfl hc

theorem startEngine_pending (s : State) : (startEngine s).pending = s.pending := by
  unfold startEngine
  split
  · rfl
  · split <;> rfl

theorem loadStore_pending (s : State) : (loadStore s).pending = s.pending := by
  unfold loadStore
  split
  · rfl
  · next c _ =>
    exact foldl_kept (P := fun t => t.pending = s.pending) loadPoint
      (loadPoint_kept fun p v t h => (settingWrite_pending p v t).trans h) c.points s rfl

/-- The commands that wait are the list q. -/
def Waiting (q : List Instr) (s : State) : Prop := s.pending = q

theorem Waiting.of_frame {q : List Instr} {s t : State} (f : ReactionFrame s t) (h : Waiting q s) :
    Waiting q t :=
  f.pending.trans h

/-- No hand-over and no reaction touches the queue of the commands that wait. -/
theorem waiting_kept (q : List Instr) : Kept (Waiting q) where
  output n s := .of_frame (recomputeOutput_frame n s)
  watch _ _ _ h := h
  levels _ _ h := h
  deferred _ _ h := h
  free _ h := h
  hold _ _ h _ := h
  raise k d s := .of_frame (record_frame k d s)
  write p v s h _ := (settingWrite_pending p v s).trans h
  ramp t r s := .of_frame (startRamp_frame t r s)
  abandon s := .of_frame (abandonRamp_frame s)
  lift s := .of_frame (liftNip_frame s)
  stop s := .of_frame (stopLine_frame s)
  heatHold s := .of_frame (setHeatHold_frame true s)
  beacon _ h := h
  report _ s := .of_frame (offerReport_frame _ s)
  safe s h _ := .of_frame (safeLine_frame s) h

/-- No unit touches the queue of the commands that wait. -/
theorem waiting_ownerKept (q : List Instr) (c : Instr) : OwnerKept (Waiting q) c where
  toKept := waiting_kept q
  count _ _ h := h
  position _ _ h := h
  speed _ h := h
  step s := .of_frame (stepReference_frame s)
  dwellEnd _ h _ := .of_frame (setMode_frame ..) h
  dwell s := .of_frame (checkDwell_frame s)
  nipState _ _ h := h
  feedback s := .of_frame (feedbackActive_frame s)
  failed s := .of_frame (failedEngage_frame s)
  beginStop s h _ := .of_frame (beginStop_frame s) h
  endStop s := .of_frame (endStop_frame s)
  heat s h _ := .of_frame (startHeat_frame s) h
  cool s h _ := .of_frame (startCool_frame s) h
  run s h _ := .of_frame (startRun_frame s) h
  thread s h _ := .of_frame (startThread_frame s) h
  clear s h _ _ := Waiting.of_frame (setMode_frame .off .noPhase { s with line.beacon := false }) h
  beaconOff _ h := h
  nipFb _ _ h := h
  guardClosed _ _ h := h
  estopOn _ h _ := h
  estopOff _ h := h
  idlePins _ _ h _ _ := h
  scanner _ _ h _ := h
  channel _ _ _ h := h
  loopFresh _ _ h := h
  loopStale k s := .of_frame (((modifyLoop_frame ..).trans (refreshLoop_frame _ k)).trans (enforceHold_frame _))
  tension t s := .of_frame ((modifyLoop_frame ..).trans (refreshLoop_frame _ (spanLoop t)))
  compute _ _ _ h := h
  limit _ _ _ _ h := h
  overOn _ _ h := h
  overOff _ _ h := h
  span _ _ _ h := h
  window _ h _ := h
  onTime _ _ h := h
  guardedWrite p v s h _ _ := (settingWrite_pending p v s).trans h
  heatLot l s h _ := ((refreshHeatSetpoints_frame { s with profiles.heat := l }).trans
    (raiseLimits_frame _)).pending.trans h
  nipLot l s h _ := (nipLotAtLine_frame s.profiles.nip l
    (refreshTensionSetpoints { s with profiles.nip := l })).pending.trans h
  lot _ _ h _ := h
  colour _ _ _ h _ _ := h
  fabric _ _ _ h _ _ := h
  accept _ _ _ _ _ h _ _ _ _ _ := (startEngine_pending _).trans h
  edit _ _ _ h _ _ := h
  remove _ _ h := h
  idle _ h := h
  engine s h := (startEngine_pending s).trans h
  admitEntries _ _ _ s h := by
    unfold offerHistory
    split <;> exact h
  clearRings _ _ h := h
  lockOn _ h _ := h
  lockOff _ h := h
  offer r s := .of_frame (offerReport_frame r s)
  flags _ s h := by
    unfold clearFlags
    dsimp only
    split <;> exact h
  mask _ _ h := h
  faultClear _ h _ := h
  restarting _ h := h
  nvm _ _ h := h

/-- No command touches the queue of the commands that wait; a start takes it over. -/
theorem waiting_stepKept (q : List Instr) (c : Instr) : StepKept (Waiting q) c where
  toOwnerKept := waiting_ownerKept q c
  receiver _ _ h := h
  buffered _ _ h _ := h
  silence _ _ h := h
  dequeued s h := (dequeue_pending s).trans h
  reply f s h := (transmitNext_frame { s with link.slot := some f }).pending.trans h
  sent s h := (transmitNext_frame { s with link.sending := none }).pending.trans h
  blank _ _ _ _ _ h _ _ := h
  load s h _ _ _ := (loadStore_pending s).trans h

/-- Every command answers a next state, before which the same commands wait. -/
theorem exec_keeps_pending (c : Instr) (s : State) : ∃ t, exec c s = .next t ∧ t.pending = s.pending :=
  (waiting_stepKept s.pending c).exec s rfl fun f _ => waiting_ownerKept s.pending (requestOf f)

/-! ## A part that does not run -/

theorem whenRuns_idle {s : State} (h : s.runs = false) (f : State → State) : whenRuns s f = s :=
  if_neg (Bool.eq_false_iff.mp h)

theorem takeRow_idle {codes own : Nat} {f : Frame} (handle : List Byte → State → Answer) {s : State}
    (h : s.runs = false) : takeRow codes own f handle s = s := by
  rw [takeRow, takeRequest_idle handle h, ite_self]

/-- Whichever way a command goes, it changes the pins alone. -/
theorem ite_pins {b : Prop} [Decidable b] {s t u : State} (ht : ∃ p, t = { s with pins := p })
    (hu : ∃ p, u = { s with pins := p }) : ∃ p,
      (.next (if b then t else u) : Host.Outcome State Fault Refusal) = .next { s with pins := p } := by
  split
  · exact ht.imp fun _ => congrArg _
  · exact hu.imp fun _ => congrArg _

/-- R205: a command that cannot start a part without power or held in reset changes its pins alone (log 2). -/
theorem exec_idle {c : Instr} {s : State} (h : s.runs = false) (hc : startsPart c = false) :
    ∃ p, exec c s = .next { s with pins := p } := by
  have held : ¬s.runs = true := Bool.eq_false_iff.mp h
  have still {f : State → State} : ∃ p,
      (.next (whenRuns s f) : Host.Outcome State Fault Refusal) = .next { s with pins := p } :=
    ⟨s.pins, congrArg _ (whenRuns_idle h f)⟩
  have request {f : Frame} {a : List Byte → State → Answer} : ∃ p,
      (.next (takeRequest f a s) : Host.Outcome State Fault Refusal) = .next { s with pins := p } :=
    ⟨s.pins, congrArg _ (takeRequest_idle a h)⟩
  have row {codes own : Nat} {f : Frame} {a : List Byte → State → Answer} : ∃ p,
      (.next (takeRow codes own f a s) : Host.Outcome State Fault Refusal) = .next { s with pins := p } :=
    ⟨s.pins, congrArg _ (takeRow_idle a h)⟩
  cases c
  case powerOn | powerLoss | resetLineActive | resetLineRelease | transmitComplete =>
    exact absurd hc.symm Bool.false_ne_true
  case nipFbActive | estopActive => exact ite_pins ⟨s.pins, rfl⟩ ⟨_, if_neg held⟩
  case nipFbInactive | guardOpens => exact ite_pins ⟨_, if_neg held⟩ ⟨s.pins, rfl⟩
  case estopReleased | guardCloses => exact ⟨_, congrArg _ (if_neg held)⟩
  case lineCmdHeat | lineCmdCool | lineCmdRun | lineCmdStop | lineCmdThread | lineCmdClear
      | scanCmdContinuous | scanCmdSingle | scanCmdStop | scanCmdConfigure | levelCmdEnable
      | levelCmdDisable | levelCmdFire | levelCmdLock | levelCmdUnlock => exact row
  case unknownRequest => exact ite_pins ⟨s.pins, takeRequest_idle _ h⟩ ⟨s.pins, rfl⟩
  case hello | pointRead | pointWrite | lot | profileWrite | profileRead | profileErase | ticketReq
      | bandStart | bandCancel | bandVoid | bandRead | queueRead | historyRead | historyClear | channelMode
      | zero | watchWrite | watchRead | levelWrite | levelRead | eventsRead | eventsClear | maskWrite
      | faultRead | faultClear | store | restart => exact request
  all_goals exact still

/-- Settles O2: every command keeps the waiting queue, and at a part that does not run one that cannot start it
changes the pins alone. -/
theorem commandsCompleteAndKeepQueue : Obligations.CommandsCompleteAndKeepQueue := by
  unfold Obligations.CommandsCompleteAndKeepQueue
  intro c s
  obtain ⟨t, ht, hq⟩ := exec_keeps_pending c s
  refine ⟨t, ht, hq, fun hr => ?_⟩
  cases hc : startsPart c with
  | true => exact .inl rfl
  | false =>
    obtain ⟨p, hp⟩ := exec_idle hr hc
    cases ht.symm.trans hp
    exact .inr rfl

end Sys2Proof.Machine

namespace Sys2Proof.Machine

/-! ## The check and the layout of a frame -/

/-- R195: a further byte goes through the register after those before it. -/
theorem crc_append (bs : List Byte) (b : Byte) : crc (bs ++ [b]) = crcByte (crc bs) b := by
  rw [crc, crc, List.foldl_append, List.foldl_cons, List.foldl_nil]

/-- R193: the length, the kind and the tag stand before the payload. -/
theorem body_length (f : Frame) : f.body.length = f.payload.length + 4 := by
  simp only [Frame.body, List.length_append, leBytes_length, List.length_cons, List.length_nil]
  omega

theorem gatheredLength_body (f : Frame) (h : f.payload.length ≤ 1024) (rest : List Byte) :
    gatheredLength (f.body ++ rest) = f.payload.length := by
  rw [gatheredLength, Frame.body, List.append_assoc, List.append_assoc,
    List.take_left' (leBytes_length 2 _), leValue_leBytes, Nat.mod_eq_of_lt (by omega)]

/-- R193: the bytes of a frame spell it. -/
theorem gatheredFrame_of_body (f : Frame) (h : f.payload.length ≤ 1024) (rest : List Byte) :
    gatheredFrame (f.body ++ rest) = f := by
  rw [gatheredFrame, gatheredLength_body f h]
  simp [Frame.body, leBytes]

theorem checkHolds_body (f : Frame) (h : f.payload.length ≤ 1024) (rest : List Byte) :
    checkHolds (f.body ++ rest) = true ↔ leValue rest = (crc f.body).toNat := by
  rw [checkHolds, gatheredLength_body f h, ← body_length, List.drop_left, List.take_left, beq_iff_eq]

/-- R195: the rule's own example. -/
theorem crc_example : crc [0x31, 0x32, 0x33, 0x34, 0x35, 0x36, 0x37, 0x38, 0x39] = 0x29B1 := by
  simp [crc, crcByte, crcShift]

/-! ## A frame byte by byte -/

/-- R194: the receiver goes on while the gathered bytes are fewer than the length they give asks for. -/
theorem gather_short {g : List Byte} {s : State} (hl : 2 ≤ g.length → gatheredLength g ≤ 1024)
    (h : 2 ≤ g.length → g.length < gatheredLength g + 6) :
    gather g s = { s with link.receiver := .inside g } := by
  unfold gather
  split
  · rfl
  · next h2 => rw [if_neg (by omega), if_pos (by omega)]

theorem gather_whole {g : List Byte} {s : State} (hl : gatheredLength g ≤ 1024)
    (h : g.length = gatheredLength g + 6) : gather g s =
      if checkHolds g then serveBuffer (validFrame (gatheredFrame g) { s with link.receiver := .hunting })
      else raiseEvent .linkError 1 { s with link.receiver := .hunting } := by
  rw [gather, if_neg (by omega), if_neg (by omega), if_neg (by omega)]

theorem gather_tooLong {g : List Byte} {s : State} (h : 2 ≤ g.length) (hl : 1024 < gatheredLength g) :
    gather g s = raiseEvent .linkError 2 { s with link.receiver := .hunting } := by
  rw [gather, if_neg (by omega), if_pos hl]

theorem receiveByte_inside {s : State} {g : List Byte} (h : s.link.receiver = .inside g) (b : Byte) :
    receiveByte s b = gather (g ++ [b]) s := by
  rw [receiveByte, h]

theorem gatheredLength_of_isPrefix {g l : List Byte} (h : g <+: l) (h2 : 2 ≤ g.length) :
    gatheredLength g = gatheredLength l := by
  obtain ⟨r, rfl⟩ := h
  rw [gatheredLength, gatheredLength, List.take_append_of_le_length h2]

/-- R194: bytes that do not end a frame are gathered, one after another. -/
theorem receiveBytes_gathers (bytes : List Byte) : ∀ (g : List Byte) (s : State),
    gatheredLength (g ++ bytes) ≤ 1024 → (g ++ bytes).length < gatheredLength (g ++ bytes) + 6 →
    receiveBytes bytes { s with link.receiver := .inside g } =
      { s with link.receiver := .inside (g ++ bytes) } := by
  induction bytes with
  | nil => intro g s _ _; simp [receiveBytes]
  | cons b bytes ih =>
    intro g s hl h
    have e : g ++ b :: bytes = (g ++ [b]) ++ bytes := by simp
    have hp : g ++ [b] <+: g ++ b :: bytes := ⟨bytes, e.symm⟩
    have hb : receiveByte { s with link.receiver := .inside g } b =
        { s with link.receiver := .inside (g ++ [b]) } := by
      refine (receiveByte_inside rfl b).trans (gather_short (fun h2 => ?_) fun h2 => ?_)
      · rwa [gatheredLength_of_isPrefix hp h2]
      · rw [gatheredLength_of_isPrefix hp h2]
        exact hp.length_le.trans_lt h
    rw [e] at hl h ⊢
    exact (congrArg (receiveBytes bytes) hb).trans (ih _ s hl h)

theorem receiveBytes_append (l m : List Byte) (s : State) :
    receiveBytes (l ++ m) s = receiveBytes m (receiveBytes l s) := List.foldl_append

theorem receiver_hunting {s : State} (h : s.link.receiver = .hunting) :
    { s with link.receiver := .hunting } = s := by
  rw [← h]

/-- R194: the sync byte begins a frame. -/
theorem receiveByte_sync {s : State} (h : s.link.receiver = .hunting) :
    receiveByte s 0xA5 = { s with link.receiver := .inside [] } := by
  rw [receiveByte, h]
  rfl

/-- R194 to R196: a hunting receiver judges the frame of a body by the two bytes that follow it. -/
theorem receiveBytes_frame {f : Frame} {s : State} (hr : s.link.receiver = .hunting)
    (h : f.payload.length ≤ 1024) (c0 c1 : Byte) : receiveBytes (0xA5 :: (f.body ++ [c0, c1])) s =
      if leValue [c0, c1] = (crc f.body).toNat then serveBuffer (validFrame f s)
      else raiseEvent .linkError 1 s := by
  have hl (rest : List Byte) := gatheredLength_body f h rest
  have gathered : receiveBytes (f.body ++ [c0]) { s with link.receiver := .inside [] } =
      { s with link.receiver := .inside (f.body ++ [c0]) } := by
    refine receiveBytes_gathers (f.body ++ [c0]) [] s ?_ ?_ <;> rw [List.nil_append, hl]
    · exact h
    · rw [List.length_append, body_length, List.length_singleton]; omega
  have whole : f.body ++ [c0] ++ [c1] = f.body ++ [c0, c1] := by simp
  calc receiveBytes (0xA5 :: (f.body ++ [c0, c1])) s
      = receiveBytes (f.body ++ [c0] ++ [c1]) { s with link.receiver := .inside [] } := by
        rw [whole, ← receiveByte_sync hr]; rfl
    _ = receiveByte { s with link.receiver := .inside (f.body ++ [c0]) } c1 := by
        rw [receiveBytes_append, gathered]; rfl
    _ = gather (f.body ++ [c0, c1]) { s with link.receiver := .inside (f.body ++ [c0]) } := by
        rw [receiveByte_inside rfl, whole]
    _ = _ := by
        rw [gather_whole (by rw [hl]; exact h) (by rw [hl, List.length_append, body_length]; rfl)]
        simp only [checkHolds_body f h, gatheredFrame_of_body f h, receiver_hunting hr]

theorem exec_frameReceived {s : State} (hr : s.runs = true) (bytes : List Byte) :
    exec (.frameReceived bytes) s = .next (receiveBytes bytes s) :=
  congrArg Host.Outcome.next (whenRuns_running hr _)

/-- R193, R195: the bytes of a frame end with the check that agrees. -/
theorem exec_frameReceived_frame {f : Frame} {s : State} (hruns : s.runs = true)
    (hr : s.link.receiver = .hunting) (h : f.payload.length ≤ 1024) :
    exec (.frameReceived f.bytes) s = .next (serveBuffer (validFrame f s)) := by
  have agrees : leValue (leBytes 2 (crc f.body).toNat) = (crc f.body).toNat :=
    (leValue_leBytes 2 _).trans (Nat.mod_eq_of_lt (crc f.body).isLt)
  rw [exec_frameReceived hruns]
  exact congrArg _ ((receiveBytes_frame hr h _ _).trans (if_pos agrees))

/-! ## The frames that wait -/

theorem validFrame_room (f : Frame) {s : State} (h : s.link.buffer.length < 4) :
    validFrame f s = restartSilence { s with link.buffer := s.link.buffer ++ [f] } := if_pos h

theorem validFrame_full (f : Frame) {s : State} (h : 4 ≤ s.link.buffer.length) :
    validFrame f s = raiseEvent .linkError 4 (restartSilence s) := if_neg h.not_gt

/-- R197: a frame that cannot be taken stays at the head of the buffer. -/
theorem serveBuffer_left {f : Frame} {rest : List Frame} {s : State} (hb : s.link.buffer = f :: rest)
    (h : takeable f s = false) : serveBuffer s = s := by
  rw [serveBuffer, hb, serve_left rest h]

/-- R197: the oldest frame is taken, then those after it. -/
theorem serveBuffer_taken {f : Frame} {rest : List Frame} {s : State} (hb : s.link.buffer = f :: rest)
    (h : takeable f s = true) :
    (takeFrame f s).link.buffer = rest ∧ serveBuffer s = serveBuffer (takeFrame f s) := by
  have left : (takeFrame f s).link.buffer = rest := by rw [(takeFrame_link h).1, hb, List.tail_cons]
  exact ⟨left, by rw [serveBuffer, hb, serve_taken rest h, serveBuffer, left]⟩

theorem exec_requestOf_left {f : Frame} {s : State} (h : takeable f s = false) (hr : s.runs = true) :
    exec (requestOf f) s = .next (validFrame f s) := by
  rw [exec_requestOf, takeFrame, takeRequest_left _ h hr]

/-! ## The command that a frame is -/

/-- A command byte above those of LINE_CMD names no row, and goes to the first (log 23). -/
theorem requestOf_lineCmd_other (tag b : Byte) (p : List Byte) (h : 6 ≤ b.toNat) :
    requestOf ⟨0x04, tag, b :: p⟩ = .lineCmdHeat tag (b :: p) := by
  change lineCmdOf tag (b :: p) = _
  rw [lineCmdOf, byteAt_zero]
  split
  iterate 5 omega
  rfl

/-- As `requestOf_lineCmd_other`, for SCAN_CMD. -/
theorem requestOf_scanCmd_other (tag b : Byte) (p : List Byte) (h : 4 ≤ b.toNat) :
    requestOf ⟨0x11, tag, b :: p⟩ = .scanCmdContinuous tag (b :: p) := by
  change scanCmdOf tag (b :: p) = _
  rw [scanCmdOf, byteAt_zero]
  split
  iterate 3 omega
  rfl

/-- As `requestOf_lineCmd_other`, for LEVEL_CMD. -/
theorem requestOf_levelCmd_other (tag b : Byte) (p : List Byte) (h : 5 ≤ b.toNat) :
    requestOf ⟨0x18, tag, b :: p⟩ = .levelCmdEnable tag (b :: p) := by
  change levelCmdOf tag (b :: p) = _
  rw [levelCmdOf, byteAt_zero]
  split
  iterate 4 omega
  rfl

/-- R198: a kind outside Table 11-3 names no command. -/
theorem requestOf_unknown (kind tag : Byte) (p : List Byte) (h : kind.toNat = 0 ∨ 0x1F < kind.toNat) :
    requestOf ⟨kind, tag, p⟩ = .unknownRequest kind tag p := by
  rw [requestOf]
  dsimp only
  split
  iterate 31 omega
  rfl

/-- Settles O45: a frame byte by byte, the oldest frame taken or left, and the command that each frame is. -/
theorem framesReceived : Obligations.FramesReceived := by
  unfold Obligations.FramesReceived
  refine ⟨fun f => rfl, ⟨rfl, crc_append, crc_example⟩, fun f s hruns hr hp => ?received,
    fun f s => ⟨takeable_iff f s, serveBuffer_empty, fun rest hb => ⟨serveBuffer_left hb, fun ht => ?taken⟩,
      fun hr ht => ?left⟩, fun tag p => ?named⟩
  case received =>
    rw [exec_frameReceived_frame hruns hr hp]
    exact ⟨fun h => by rw [validFrame_room f h], fun h => by rw [validFrame_full f h]⟩
  case taken => exact ⟨takeFrame f s, exec_requestOf f s, serveBuffer_taken hb ht⟩
  case left =>
    rw [exec_requestOf_left ht hr]
    exact ⟨fun h => by rw [validFrame_room f h], fun h => by rw [validFrame_full f h]⟩
  case named =>
    refine ⟨rfl, rfl, rfl, rfl, rfl, rfl, rfl, rfl, rfl, rfl, rfl, rfl, rfl, rfl,
      rfl, rfl, rfl, rfl, rfl, rfl, rfl, rfl, rfl, rfl, rfl, rfl, rfl, rfl,
      rfl, rfl, rfl, rfl, rfl, rfl, rfl, fun b => requestOf_lineCmd_other tag b p,
      rfl, rfl, rfl, rfl, rfl, fun b => requestOf_scanCmd_other tag b p,
      rfl, rfl, rfl, rfl, rfl, rfl, fun b => requestOf_levelCmd_other tag b p,
      fun kind => requestOf_unknown kind tag p⟩

end Sys2Proof.Machine

namespace Sys2Proof.Machine

/-! ## The failures of a frame and the link-silence timing -/

theorem exec_frameSyncReceived {s : State} (hr : s.runs = true) (b : Byte) :
    exec (.frameSyncReceived b) s = .next (receiveByte s b) :=
  congrArg Host.Outcome.next (whenRuns_running hr _)

theorem exec_interbyteGapTimeout {s : State} (hr : s.runs = true) :
    exec .interbyteGapTimeout s = .next (gapTimeout s) :=
  congrArg Host.Outcome.next (whenRuns_running hr _)

theorem exec_linkSilenceExpiry {s : State} (hr : s.runs = true) :
    exec .linkSilenceExpiry s = .next (silenceExpired s) :=
  congrArg Host.Outcome.next (whenRuns_running hr _)

/-- R194: a hunting receiver passes over a byte that is not the sync byte. -/
theorem receiveByte_hunting {s : State} (h : s.link.receiver = .hunting) {b : Byte} (hb : b ≠ 0xA5) :
    receiveByte s b = s := by
  rw [receiveByte, h]
  exact if_neg hb

/-- R196: a frame whose length is beyond 1024 fails at its second length byte. -/
theorem receiveBytes_tooLong {s : State} (h : s.link.receiver = .hunting) {l0 l1 : Byte}
    (hl : 1024 < l0.toNat + 256 * l1.toNat) :
    receiveBytes [0xA5, l0, l1] s = raiseEvent .linkError 2 s := by
  have first : receiveByte { s with link.receiver := .inside [] } l0 =
      { s with link.receiver := .inside [l0] } :=
    (receiveByte_inside rfl l0).trans (gather_short (by simp) (by simp))
  calc receiveBytes [0xA5, l0, l1] s
      = receiveByte (receiveByte { s with link.receiver := .inside [] } l0) l1 := by
        rw [← receiveByte_sync h]; rfl
    _ = gather [l0, l1] { s with link.receiver := .inside [l0] } := by
        rw [first, receiveByte_inside rfl]; rfl
    _ = raiseEvent .linkError 2 { s with link.receiver := .hunting } := gather_tooLong le_rfl hl
    _ = raiseEvent .linkError 2 s := by rw [receiver_hunting h]

theorem gapTimeout_inside {s : State} {g : List Byte} (h : s.link.receiver = .inside g) :
    gapTimeout s = raiseEvent .linkError 3 { s with link.receiver := .hunting } := by
  rw [gapTimeout, h]

theorem gapTimeout_hunting {s : State} (h : s.link.receiver = .hunting) : gapTimeout s = s := by
  rw [gapTimeout, h]

theorem silenceExpired_running {s : State} (h : s.link.silence ≠ none) :
    silenceExpired s = raiseEvent .linkSilent 0 { s with link.silence := none } := by
  obtain ⟨v, hv⟩ := Option.ne_none_iff_exists'.mp h
  rw [silenceExpired, hv]

theorem silenceExpired_stopped {s : State} (h : s.link.silence = none) : silenceExpired s = s := by
  rw [silenceExpired, h]

theorem restartSilence_armed {s : State} (h : s.link.silenceArmed = true) :
    restartSilence s = { s with link.silence := some s.link.linkSilence } := if_pos h

theorem restartSilence_unarmed {s : State} (h : s.link.silenceArmed = false) : restartSilence s = s :=
  if_neg (Bool.eq_false_iff.mp h)

/-- Settles O46: a hunting receiver by what its bytes are, the gap by where the receiver stands, and the silence
timing by whether it runs and is armed. -/
theorem frameFailuresAndSilence : Obligations.FrameFailuresAndSilence := by
  unfold Obligations.FrameFailuresAndSilence
  refine ⟨fun s hr => ⟨fun h => ⟨?_, fun b hb => ?_, fun l0 l1 hl => ?_, fun f c0 c1 hp hc => ?_⟩,
    fun g h => ?_, fun h => ?_⟩, fun s => ⟨fun hr h => ?_, fun hr h => ?_, restartSilence_armed,
      restartSilence_unarmed⟩⟩
  · rw [exec_frameSyncReceived hr, receiveByte_sync h]
  · rw [exec_frameSyncReceived hr, receiveByte_hunting h hb]
  · rw [exec_frameReceived hr, receiveBytes_tooLong h hl]
  · rw [exec_frameReceived hr]
    exact congrArg _ ((receiveBytes_frame h hp c0 c1).trans (if_neg hc))
  · rw [exec_interbyteGapTimeout hr, gapTimeout_inside h]
  · rw [exec_interbyteGapTimeout hr, gapTimeout_hunting h]
  · rw [exec_linkSilenceExpiry hr, silenceExpired_running h]
    rfl
  · rw [exec_linkSilenceExpiry hr, silenceExpired_stopped h]

end Sys2Proof.Machine

namespace Sys2Proof.Machine

/-! ## RESTART and the requests of no kind -/

theorem exec_restart {tag : Byte} {payload : List Byte} {s t : State} {st : Status}
    (h : takeable ⟨0x1F, tag, payload⟩ s = true) (ha : restartAnswer payload (dequeue s) = ⟨t, st, []⟩) :
    exec (.restart tag payload) s = .next (putReply ⟨0x9F, tag, replyPayload st []⟩ t) :=
  congrArg Host.Outcome.next (takeRequest_answered h ha)

theorem storeBusy_iff (s : State) : storeBusy s = true ↔ s.nvm.writing ≠ none := Option.isSome_iff_ne_none

theorem storeBusy_dequeue (s : State) : storeBusy (dequeue s) = storeBusy s := by
  rw [storeBusy, dequeue_nvm, storeBusy]

theorem restartAnswer_length {payload : List Byte} (h : payload ≠ []) (s : State) :
    restartAnswer payload s = refuse .length s :=
  withLength_ne (mt List.eq_nil_of_length_eq_zero h) s _

/-- R207, R209: a STORE in progress refuses RESTART. -/
theorem restartAnswer_empty (s : State) : restartAnswer [] s =
    if storeBusy s then refuse .busy s else ⟨{ s with link.restarting := true }, .ok, []⟩ :=
  withLength_eq rfl s _

theorem takeable_restarting (f : Frame) {s : State} (h : s.link.restarting = true) :
    takeable f s = false :=
  Bool.eq_false_iff.mpr fun ht => by
    obtain ⟨-, hr, -⟩ := (takeable_iff f s).mp ht
    exact Bool.false_ne_true (hr.symm.trans h)

theorem unknownKind_iff (kind : Byte) : unknownKind kind = true ↔ kind.toNat = 0 ∨ 0x1F < kind.toNat := by
  simp [unknownKind]

theorem exec_unknownRequest {kind tag : Byte} {payload : List Byte} {s : State}
    (hk : unknownKind kind = true) (h : takeable ⟨kind, tag, payload⟩ s = true) :
    exec (.unknownRequest kind tag payload) s = .next (putReply ⟨kind + 0x80, tag, [2]⟩ (dequeue s)) :=
  congrArg Host.Outcome.next ((if_pos hk).trans (takeRequest_answered (st := .unknown) (items := []) h rfl))

/-- Settles O47: RESTART by its payload and the STORE in progress; no frame is taken after it; and a kind that
names no request. -/
theorem restartAndUnknownRequests : Obligations.RestartAndUnknownRequests := by
  unfold Obligations.RestartAndUnknownRequests
  intro tag payload s d
  refine ⟨fun ht => ⟨fun hp => ?_, fun hp hw => ?_, fun hp hw => ?_⟩, fun f => takeable_restarting f,
    fun kind hk ht => exec_unknownRequest ((unknownKind_iff kind).mpr hk) ht⟩
  · exact exec_restart (st := .length) ht (restartAnswer_length hp _)
  · subst hp
    have busy : storeBusy d = true := (storeBusy_dequeue s).trans ((storeBusy_iff s).mpr hw)
    exact exec_restart (st := .busy) ht ((restartAnswer_empty d).trans (if_pos busy))
  · subst hp
    have free : ¬storeBusy d = true := by rw [storeBusy_dequeue, storeBusy_iff, not_not]; exact hw
    exact exec_restart (st := .ok) ht ((restartAnswer_empty d).trans (if_neg free))

end Sys2Proof.Machine

namespace Sys2Proof.Machine

/-! ## STORE -/

theorem exec_store {tag : Byte} {s t : State} {st : Status} (h : takeable ⟨0x1E, tag, []⟩ s = true)
    (ha : storeAnswer [] (dequeue s) = ⟨t, st, []⟩) :
    exec (.store tag []) s = .next (putReply ⟨0x9E, tag, replyPayload st []⟩ t) :=
  congrArg Host.Outcome.next (takeRequest_answered h ha)

theorem storeAnswer_mode {s : State} (hm : s.line.mode ≠ .off) : storeAnswer [] s = refuse .mode s := by
  rw [storeAnswer, withLength_eq (payload := []) List.length_nil, if_pos hm]

theorem storeAnswer_off {s : State} (hm : s.line.mode = .off) : storeAnswer [] s =
    if storeBusy s then refuse .busy s else ⟨beginStore s, .ok, []⟩ := by
  rw [storeAnswer, withLength_eq (payload := []) List.length_nil, if_neg (not_not.mpr hm)]

/-- R209: the place that STORE writes and the generation that it gives. -/
theorem storePlace_first {s : State} (h : s.nvm.current = none) : storeTarget s = 0 ∧ nextGeneration s = 1 := by
  rw [storeTarget, nextGeneration, h]
  exact ⟨rfl, rfl⟩

theorem storePlace_other {s : State} {i j : Fin 2} {g : Nat} {c : Contents} {k : BitVec 16}
    (h : s.nvm.current = some i) (hp : s.nvm.places[i] = .image g c k) (hj : i ≠ j) :
    storeTarget s = j ∧ nextGeneration s = if g = 4294967295 then 1 else g + 1 := by
  constructor
  · rw [storeTarget, h]
    dsimp only
    split <;> omega
  · rw [nextGeneration, h]
    dsimp only
    rw [hp]
    rfl

/-- The taking of the frame changes nothing that a STORE captures. -/
theorem captureContents_dequeue (s : State) : captureContents (dequeue s) = captureContents s := by
  simp only [captureContents, readPoint_dequeue, dequeue_profiles, dequeue_react, dequeue_events]

/-- R209: the image that a taken STORE begins to write. -/
theorem beginStore_dequeue (s : State) : beginStore (dequeue s) = { dequeue s with
    nvm.places := upd s.nvm.places (storeTarget s)
      (unfinishedImage (nextGeneration s) (captureContents s))
    nvm.writing := some (storeTarget s) } := by
  simp only [beginStore, storeTarget, nextGeneration, captureContents_dequeue, dequeue_nvm]

/-- R209: STORE taken in OFF with no write in progress. -/
theorem exec_store_taken {tag : Byte} {s : State} (h : takeable ⟨0x1E, tag, []⟩ s = true)
    (hm : s.line.mode = .off) (hw : s.nvm.writing = none) {i : Fin 2} {g : Nat}
    (ht : storeTarget s = i ∧ nextGeneration s = g) :
    exec (.store tag []) s = .next (putReply ⟨0x9E, tag, [0]⟩ { dequeue s with
      nvm.places := upd s.nvm.places i (.image g (captureContents s)
        (~~~ imageCheck g (captureContents s)))
      nvm.writing := some i }) := by
  obtain ⟨rfl, rfl⟩ := ht
  have free : ¬storeBusy (dequeue s) = true := by rw [storeBusy_dequeue, storeBusy_iff, not_not]; exact hw
  refine exec_store (st := .ok) h ?_
  rw [storeAnswer_off (by rw [dequeue_line]; exact hm), if_neg free, beginStore_dequeue]
  rfl

theorem exec_storeWriteComplete {s : State} (hr : s.runs = true) (agrees : Bool) :
    exec (.storeWriteComplete agrees) s = .next (endStore agrees s) :=
  congrArg Host.Outcome.next (whenRuns_running hr _)

/-- R209: the read-back agrees, and the image written becomes the current one. -/
theorem endStore_agrees {s : State} {i : Fin 2} {g : Nat} {c : Contents} {k : BitVec 16}
    (h : s.nvm.writing = some i) (hp : s.nvm.places[i] = .image g c k) :
    endStore true s = commit s (record .storeDone 0 { s with
      nvm.places := upd s.nvm.places i (.image g c (imageCheck g c))
      nvm.current := some i
      nvm.writing := none }) := by
  rw [endStore, h]
  dsimp only
  rw [hp, if_pos rfl, Place.confirmed]

theorem endStore_fails {s : State} {i : Fin 2} (h : s.nvm.writing = some i) :
    endStore false s = commit s (record .storeFail 0 { s with nvm.writing := none }) := by
  rw [endStore, h]
  exact if_neg Bool.false_ne_true

/-- Settles O49: STORE by the line mode, the write in progress and the current image; and the end of the write by
the read-back. -/
theorem storeWritesOtherPlace : Obligations.StoreWritesOtherPlace := by
  unfold Obligations.StoreWritesOtherPlace
  intro tag s d
  refine ⟨fun ht => ⟨fun hm => ?_, fun hm hw => ?_, fun hm hw hc => ?_, fun i j g c k hm hw hc hp hj => ?_⟩,
    fun i g c k hr hw hp => ⟨?_, ?_⟩⟩
  · exact exec_store (st := .mode) ht (storeAnswer_mode (by rw [dequeue_line]; exact hm))
  · have busy : storeBusy d = true := (storeBusy_dequeue s).trans ((storeBusy_iff s).mpr hw)
    have off : d.line.mode = .off := (congrArg LineUnit.mode (dequeue_line s)).trans hm
    exact exec_store (st := .busy) ht ((storeAnswer_off off).trans (if_pos busy))
  · exact exec_store_taken ht hm hw (storePlace_first hc)
  · exact exec_store_taken ht hm hw (storePlace_other hc hp hj)
  · rw [exec_storeWriteComplete hr, endStore_agrees hw hp]
  · rw [exec_storeWriteComplete hr, endStore_fails hw]

end Sys2Proof.Machine

namespace Sys2Proof.Machine

/-! ## A step by the front of the queue -/

theorem step_cons {s : State} {c : Instr} {rest : List Instr} (h : s.pending = c :: rest) :
    step s = exec c { s with pending := rest } := by
  rw [step, h]

theorem step_nil {s : State} (h : s.pending = []) : step s = .next (settle s) := by
  rw [step, h]

/-- The block idles: no command waits and no trigger offer is left over (log 10, 11). -/
theorem step_idle {s : State} (h : s.pending = []) (hd : s.react.deferred = []) : step s = .next s :=
  (step_nil h).trans (congrArg Host.Outcome.next (settle_idle hd))

/-- Settles O1: the step by its queue, and the empty queue by the trigger offers left over. -/
theorem stepRunsFrontCommand : Obligations.StepRunsFrontCommand := by
  unfold Obligations.StepRunsFrontCommand
  exact fun s => ⟨fun _ _ h => step_cons h, fun h => step_nil h, fun h hd => step_idle h hd⟩

end Sys2Proof.Machine
